-- ==== Sys2Proof/Word.lean ====
section
/-!
DEFINITION. Word.lean: the words of the unit that wrap (R1, R117, R141, R177, R185) and the
numbers of its numbered things (Introduction §7.3). Their arithmetic stands in Machine/Arith.lean.
-/
namespace Sys2Proof

/-- A byte of a frame (R185). -/
abbrev Byte := BitVec 8

/-- A value of the corridor clock: deciseconds modulo 2^32 (R1). -/
abbrev Clock := BitVec 32

/-- An order tag, 0–255, modulo 256 (R117). -/
abbrev Tag := BitVec 8

/-- A budget window number, modulo 65536 (R141, R142). -/
abbrev WindowNumber := BitVec 16

/-- A notice number, modulo 65536 (R177). -/
abbrev NoticeNumber := BitVec 16

/-- The check word of a frame or of the stored image (R180, R185). -/
abbrev CheckWord := BitVec 16

/-- J0–J3 (§7.3). -/
abbrev JunctionNo := Fin 4

/-- A0–A15 (§7.3). -/
abbrev ApproachNo := Fin 16

/-- P0–P7 (§7.3). -/
abbrev PhaseNo := Fin 8

/-- Reach 0–7 of an approach (§7.3). -/
abbrev ReachNo := Fin 8

/-- Track Table set 0–31 (R40). -/
abbrev SetNo := Fin 32

/-- Intake slot 0–15 (R27). -/
abbrev SlotNo := Fin 16

/-- Hand-on entry id 0–3 (§7.3). -/
abbrev EntryId := Fin 4

/-- Route group 0–7 (R12). -/
abbrev GroupNo := Fin 8

end Sys2Proof
end

