-- ==== Sys2Proof/Machine/Arith.lean ====
section
/-!
DEFINITION. Machine/Arith.lean: the unit's integer and clock arithmetic (Introduction §7.1, §7.2).
-/
namespace Sys2Proof.Machine

/-- "To clamp a value to a range" (§7.1). -/
def clamp (lo hi x : Nat) : Nat := min hi (max lo x)

/-- Clamping of a signed quantity (§7.1). -/
def clampInt (lo hi x : Int) : Int := min hi (max lo x)

/-- A division that rounds up (§7.1). Every divisor of the unit is at least 1. -/
def ceilDiv (a b : Nat) : Nat := (a + b - 1) / b

/-- A counter held at the end of its range (§7.1). -/
def saturate (top x : Nat) : Nat := min top x

/-- The lateness and deviation range −3000 to +6000 ds (R42, R83). -/
def clampDs (x : Int) : Int := clampInt (-3000) 6000 x

/-- t1 is later than t2 when (t1 − t2) mod 2^32 lies in 1 to 2^31 − 1 (§7.2). -/
def later (t1 t2 : Clock) : Bool :=
  let d := (t1 - t2).toNat
  decide (1 ≤ d) && decide (d ≤ 2 ^ 31 - 1)

/-- t1 is earlier than t2 when t2 is later than t1 (§7.2). -/
def earlier (t1 t2 : Clock) : Bool := later t2 t1

/-- t1 is at or after t2 when they are equal or t1 is later (§7.2). -/
def atOrAfter (t1 t2 : Clock) : Bool := t1 == t2 || later t1 t2

/-- Adding a duration to a clock value, modulo 2^32 (§7.2). -/
def after (t : Clock) (d : Nat) : Clock := t + BitVec.ofNat 32 d

/-- The duration from t2 to t1, modulo 2^32 (§7.2). -/
def elapsed (t1 t2 : Clock) : Nat := (t1 - t2).toNat

/-- The difference t1 − t2 as a signed number of deciseconds, read as the clock comparison reads it. -/
def signedElapsed (t1 t2 : Clock) : Int :=
  if atOrAfter t1 t2 then (elapsed t1 t2 : Int) else -(elapsed t2 t1 : Int)

/-- How long t1 lies after t2, and 0 where it does not: max(0, t1 − t2). -/
def overrun (t1 t2 : Clock) : Nat := if later t1 t2 then elapsed t1 t2 else 0

/-- A number read as the number of one of `n` numbered things, where it is one. -/
def numbered (n x : Nat) : Option (Fin n) :=
  if h : x < n then some ⟨x, h⟩ else none

end Sys2Proof.Machine
end

