-- ==== Sys2Proof/Syntax.lean ====
section
/-!
DEFINITION. Syntax.lean: the commands of the unit, one constructor of `Instr` per row of
spec/opcode_table.json, and the records they carry. A record is given by its named fields
(Introduction §2); a field's number is the number the frame carries, before any check of the unit's,
so that out-of-range values can be sent and are handled as the rules say.
-/
namespace Sys2Proof

/-- The four ports (Introduction §2). -/
inductive Port where
  | supervisor | radio | signal | corridor
  deriving DecidableEq, Repr, Inhabited

/-- The two ports whose transmitters PORT_FRAME_COMPLETE speaks of (R186). -/
inductive SendPort where
  | signal | corridor
  deriving DecidableEq, Repr, Inhabited

/-- The two ways of a set of the Track Table (R40). -/
inductive Way where
  | a | b
  deriving DecidableEq, Repr, Inhabited

/-- Which part of a phase is running (R109). -/
inductive Interval where
  | green | clearance
  deriving DecidableEq, Repr, Inhabited

/-- The kind of a radio report with the fields of that kind (R24). Deviations are in seconds. -/
inductive ReportBody where
  | checkIn (route distance speed : Nat) (deviation : Option Int)
  | position (distance speed : Nat) (deviation : Option Int)
  | stopArrive (stop : Nat) (deviation : Option Int)
  | stopDepart (stop : Nat) (deviation : Option Int)
  | passed
  | checkOut
  deriving DecidableEq, Repr, Inhabited

/-- A byte received after the marker of a frame that is abandoned, and how many ds before the abandonment it arrived (R186). -/
structure HeardByte where
  byte : Byte
  age : Nat
  deriving DecidableEq, Repr, Inhabited

/-- What arrives whole on the radio port (R25, R187). `unfit` is a frame that fails its CRC or its length, and is abandoned, with its bytes after the
marker; `misfit` is one whose body does not fit the layout of its kind. Neither reaches IB. -/
inductive RadioFrame where
  | unfit (bytes : List HeardByte)
  | misfit
  | unknownKind (code : Byte)
  | report (vehicle approach : Nat) (body : ReportBody)
  deriving DecidableEq, Repr, Inhabited

/-- A HAND-ON record as carried (R63, R188); the deviation is in deciseconds. -/
structure HandOnFrame where
  vehicle : Nat
  route : Nat
  deviation : Int
  entry : Nat
  deriving DecidableEq, Repr, Inhabited

/-- A PHASE STATUS record as carried (R109, R188). -/
structure PhaseStatusFrame where
  junction : Nat
  phase : Nat
  interval : Interval
  elapsed : Nat
  remaining : Nat
  deriving DecidableEq, Repr, Inhabited

/-- A supervisor request (R169): the request number and the body. `none` is a body whose length or
fields do not fit the kind (R169 step 3). -/
structure Request (α : Type) where
  number : Byte
  body : Option α
  deriving DecidableEq, Repr

/-- The twelve tables of the working image (R2). -/
inductive TableName where
  | junction | phase | gate | approach | reach | entry | routeRange | group | cls | level | enables | parameter
  deriving DecidableEq, Repr, Inhabited

/-- An optional field as a WRITE CONFIG carries it: the code of its presence byte and the value that
follows where the code is 1 (R187, R188). -/
structure OptionalField where
  presence : Nat
  value : Nat
  deriving DecidableEq, Repr, Inhabited

/-- The values of a written entry, each field in the order of its rule's field table (R188), coded fields
as their codes (R189). -/
inductive WrittenEntry where
  | junction (present phaseCount : Nat)
  | phase (split minGreen clearance maxExtension guarded : Nat)
  | gate (mode m u tu : Nat)
  | approach (junction : OptionalField) (busPhase reachCount trust : Nat) (exitTarget : OptionalField) (secondaryLimit : Nat)
  | reach (length cruise stop dwellMode fixedDwell : Nat)
  | entry (approach : OptionalField) (linkTime : Nat)
  | routeRange (low high group : Nat)
  | group (ceiling : Nat)
  | cls (tier : Nat)
  | level (cap floor : Nat)
  | enables (approach grantNotice levelNotice referral : List Nat)
  | parameter (value : Nat)
  deriving DecidableEq, Repr, Inhabited

/-- WRITE CONFIG to one of the twelve tables (R19): the table is the constructor of the values. -/
structure ConfigWrite where
  index : Nat
  values : WrittenEntry
  deriving DecidableEq, Repr, Inhabited

/-- WRITE CONFIG to the SLOT table (R37). -/
structure SlotWrite where
  index : Nat
  code : Nat
  approachSwitches : List Nat
  kindSwitches : List Nat
  deriving DecidableEq, Repr, Inhabited

/-- READ CONFIG of one of the twelve tables (R23). -/
structure ConfigRead where
  table : TableName
  index : Nat
  deriving DecidableEq, Repr, Inhabited

/-- SET GATE (R101). -/
structure GateSetting where
  junction : Nat
  mode : Nat
  m : Nat
  u : Nat
  tu : Nat
  deriving DecidableEq, Repr, Inhabited

/-- SET ENABLES (R172): the group's code and the new value of every switch of the group. -/
structure EnablesSetting where
  group : Nat
  switches : List Nat
  deriving DecidableEq, Repr, Inhabited

/-- CLEAR FLAGS (R173): slots, junction and level pairs (the level by its code: LO 1, MID 2, HI 3), anomaly classes, approaches, and
the switch naming the notice overflow flag. -/
structure FlagSets where
  slots : List Nat
  rises : List (Nat × Nat)
  classes : List Nat
  approaches : List Nat
  overflow : Nat
  deriving DecidableEq, Repr, Inhabited

/-- CLEAR FAULT (R133). -/
structure FaultClear where
  junction : Nat
  kinds : List Nat
  deriving DecidableEq, Repr, Inhabited

/-- RULE (R153): codes of the class and the ruling, the vehicle, and the optional value. -/
structure Ruling where
  cls : Nat
  vehicle : Nat
  ruling : Nat
  value : Option Nat
  deriving DecidableEq, Repr, Inhabited

/-- Why a frame is abandoned or discarded at the frame level (R186, R187). An abandoned frame comes with the bytes received after its marker, which the
receiver goes through again (log 34). A frame whose kind or body does not fit has a matching check word, and its bytes are not gone through again. -/
inductive AbandonReason where
  | length (bytes : List HeardByte)
  | checkWord (bytes : List HeardByte)
  | kind
  | body
  deriving DecidableEq, Repr, Inhabited

/-- A frame that has not completed within 5 ds of its marker (R186): its port, and the bytes received after the marker. -/
structure LateFrame where
  port : Port
  bytes : List HeardByte
  deriving DecidableEq, Repr, Inhabited

/-- The commands, one per row of spec/opcode_table.json, in the table's order. -/
inductive Instr where
  | coldStart
  | radioReport (frame : RadioFrame)
  | frameTimeout (frame : LateFrame)
  | takeReport
  | takeHandOn
  | handOnArrival (record : HandOnFrame)
  | stallLimit
  | phaseStatus (record : PhaseStatusFrame)
  | mirrorStale (j : JunctionNo)
  | occupancy (junction percent : Nat)
  | detectorCall (junction approach presence : Nat)
  | ack (junction : Nat) (tag : Tag) (accepted : Bool)
  | ackTimeout (j : JunctionNo)
  | recoveryDeadline (j : JunctionNo)
  | windowDeadline (j : JunctionNo)
  | averagingDeadline
  | leakDeadline
  | staleDeadline (set : SetNo) (way : Way)
  | expectDeadline (set : SetNo) (way : Way)
  | dwellDeadline (set : SetNo) (way : Way)
  | referralDeadline
  | readStatus (r : Request Unit)
  | unknownRequest (kind number : Byte)
  | readTrack (r : Request Nat)
  | readSet (r : Request Nat)
  | readJunction (r : Request Nat)
  | readList (r : Request Nat)
  | holdSlot (r : Request Nat)
  | releaseSlot (r : Request Unit)
  | readConfig (r : Request ConfigRead)
  | readConfigSlot (r : Request Nat)
  | writeConfig (r : Request ConfigWrite)
  | writeConfigSlot (r : Request SlotWrite)
  | setGate (r : Request GateSetting)
  | setEnables (r : Request EnablesSetting)
  | clearFlags (r : Request FlagSets)
  | clearFault (r : Request FaultClear)
  | rule (r : Request Ruling)
  | tag (r : Request Nat)
  | untag (r : Request Nat)
  | clearJunction (r : Request Nat)
  | restart (r : Request Unit)
  | commitConfig (r : Request Unit)
  | lockConfig (r : Request Unit)
  | storeWriteComplete (ok : Bool)
  | supervisorFrameComplete
  | portFrameComplete (port : SendPort)
  | corridorClockTick
  | markerByte (port : Port)
  | abandonedFrame (port : Port) (reason : AbandonReason)
  deriving DecidableEq, Repr, Inhabited

end Sys2Proof
end

