-- ==== Sys2Proof/Machine/Image.lean ====
section
/-!
DEFINITION. Machine/Image.lean: the working image of the Corridor Description (R2), its entries, its
lookups and its built-in defaults (R4).
-/
namespace Sys2Proof.Machine

/-- R5. -/
structure JunctionEntry where
  present : Bool
  phaseCount : Nat
  deriving DecidableEq, Repr, Inhabited

/-- R6. -/
structure PhaseEntry where
  split : Nat
  minGreen : Nat
  clearance : Nat
  maxExtension : Nat
  guarded : Bool
  deriving DecidableEq, Repr, Inhabited

/-- How a tier gate's masks are read (R7, R98). -/
inductive GateMode where
  | uniform | split
  deriving DecidableEq, Repr, Inhabited

/-- A tier gate setting (R7, R98): `m` and `u` are true for a mask of 1. -/
structure Gate where
  mode : GateMode
  m : Bool
  u : Bool
  tu : Nat
  deriving DecidableEq, Repr, Inhabited

/-- R8. -/
structure ApproachEntry where
  junction : Option JunctionNo
  busPhase : PhaseNo
  reachCount : Nat
  trust : Nat
  exitTarget : Option EntryId
  secondaryLimit : Nat
  deriving DecidableEq, Repr, Inhabited

/-- R10. -/
inductive DwellMode where
  | none | fixed | reported | timedThenReported
  deriving DecidableEq, Repr, Inhabited

/-- R9. -/
structure ReachEntry where
  length : Nat
  cruise : Nat
  stop : Bool
  dwellMode : DwellMode
  fixedDwell : Nat
  deriving DecidableEq, Repr, Inhabited

/-- R11. -/
structure EntryEntry where
  approach : Option ApproachNo
  linkTime : Nat
  deriving DecidableEq, Repr, Inhabited

/-- R12. -/
structure RouteRange where
  low : Nat
  high : Nat
  group : GroupNo
  deriving DecidableEq, Repr, Inhabited

/-- R15. -/
structure LevelEntry where
  cap : Nat
  floor : Nat
  deriving DecidableEq, Repr, Inhabited

/-- R14. LEVEL notice switches are indexed LO 0, MID 1, HI 2; referral switches DISTANCE 0, REVERSAL 1,
HORIZON 2, DWELL 3, CONFLICT 4. -/
structure Enables where
  approach : Vector Bool 16
  grantNotice : Vector Bool 4
  levelNotice : Vector Bool 3
  referral : Vector Bool 5
  deriving DecidableEq, Repr, Inhabited

/-- The working image: twelve tables (R2). PHASE is indexed junction × 8 + phase, REACH approach × 8 + reach.
Intake order, PARAMETER 19, is held as its code: SLOT 0, AGE 1 (R189). -/
structure Image where
  junctions : Vector JunctionEntry 4
  phases : Vector PhaseEntry 32
  gates : Vector Gate 4
  approaches : Vector ApproachEntry 16
  reaches : Vector ReachEntry 128
  entries : Vector EntryEntry 4
  routes : Vector RouteRange 16
  groups : Vector Nat 8
  classes : Vector Nat 4
  levels : Vector LevelEntry 4
  enables : Enables
  parameters : Vector Nat 23
  deriving DecidableEq, Repr, Inhabited

/-- An entry of the working image as it stands (R19, R23). -/
inductive TableEntry where
  | junction (e : JunctionEntry)
  | phase (e : PhaseEntry)
  | gate (e : Gate)
  | approach (e : ApproachEntry)
  | reach (e : ReachEntry)
  | entry (e : EntryEntry)
  | routeRange (e : RouteRange)
  | group (ceiling : Nat)
  | cls (tier : Nat)
  | level (e : LevelEntry)
  | enables (e : Enables)
  | parameter (value : Nat)
  deriving DecidableEq, Repr, Inhabited

/-! ### Built-in defaults (R4) -/

/-- The gate of every GATE entry under the built-in defaults: UNIFORM, M = 1, U = 0, Tu = 3 (R4). -/
def defaultGate : Gate := { mode := .uniform, m := true, u := false, tu := 3 }

/-- R4. -/
def defaultPhase : PhaseEntry :=
  { split := 300, minGreen := 100, clearance := 50, maxExtension := 0, guarded := false }

/-- R4. -/
def defaultApproach : ApproachEntry :=
  { junction := none, busPhase := 0, reachCount := 1, trust := 2, exitTarget := none, secondaryLimit := 1 }

/-- R4. -/
def defaultReach : ReachEntry :=
  { length := 2000, cruise := 100, stop := false, dwellMode := .none, fixedDwell := 0 }

/-- A retired ROUTE RANGE entry (R4, R12). -/
def retiredRoute : RouteRange := { low := 4095, high := 1, group := 0 }

/-- Every enable off (R4). -/
def allOff : Enables :=
  { approach := .replicate 16 false, grantNotice := .replicate 4 false,
    levelNotice := .replicate 3 false, referral := .replicate 5 false }

/-- The default column of R16. -/
def defaultParameters : Vector Nat 23 :=
  #v[1500, 30, 20, 100, 20, 300, 1800, 600, 50, 3000, 4, 0, 600, 4, 100, 40, 60, 80, 5, 0, 1800, 600, 300]

/-- The built-in defaults of the working image (R4, R15, R16). -/
def builtInDefaults : Image :=
  { junctions := .replicate 4 { present := false, phaseCount := 2 }
    phases := .replicate 32 defaultPhase
    gates := .replicate 4 defaultGate
    approaches := .replicate 16 defaultApproach
    reaches := .replicate 128 defaultReach
    entries := .replicate 4 { approach := none, linkTime := 0 }
    routes := (Vector.replicate 16 retiredRoute).set 0 { low := 1, high := 4095, group := 0 }
    groups := .replicate 8 3
    classes := #v[3, 2, 1, 0]
    levels := #v[{ cap := 600, floor := 1 }, { cap := 450, floor := 1 },
                 { cap := 300, floor := 2 }, { cap := 100, floor := 3 }]
    enables := allOff
    parameters := defaultParameters }

/-! ### Lookups -/

/-- The JUNCTION entry of a junction (R5). -/
def Image.junction (img : Image) (j : JunctionNo) : JunctionEntry := img.junctions.get j

/-- The PHASE entry of a phase of a junction (R6). -/
def Image.phase (img : Image) (j : JunctionNo) (p : PhaseNo) : PhaseEntry :=
  img.phases.get ⟨j.val * 8 + p.val, by omega⟩

/-- The APPROACH entry of an approach (R8). -/
def Image.approach (img : Image) (a : ApproachNo) : ApproachEntry := img.approaches.get a

/-- The REACH entry of a reach of an approach, as stored (R9, R23). -/
def Image.reach (img : Image) (a : ApproachNo) (k : ReachNo) : ReachEntry :=
  img.reaches.get ⟨a.val * 8 + k.val, by omega⟩

/-- The reaches in use of an approach, upstream to downstream: reaches 0 to n − 1 (R8, R70). -/
def Image.reachesInUse (img : Image) (a : ApproachNo) : List ReachEntry :=
  (List.ofFn (img.reach a)).take (img.approach a).reachCount

/-- A unit parameter by its number (R16). -/
def Image.parameter (img : Image) (n : Fin 23) : Nat := img.parameters.get n

def Image.horizon (img : Image) : Nat := img.parameter 0
def Image.clearMargin (img : Image) : Nat := img.parameter 1
def Image.minimumCut (img : Image) : Nat := img.parameter 2
def Image.conflictWindow (img : Image) : Nat := img.parameter 3
def Image.reversalTolerance (img : Image) : Nat := img.parameter 4
def Image.staleTime (img : Image) : Nat := img.parameter 5
def Image.dwellCap (img : Image) : Nat := img.parameter 6
def Image.expectMargin (img : Image) : Nat := img.parameter 7
def Image.referralTimeout (img : Image) : Nat := img.parameter 8
def Image.budgetWindow (img : Image) : Nat := img.parameter 9
def Image.recoveryRatio (img : Image) : Nat := img.parameter 10
def Image.recoveryMinimum (img : Image) : Nat := img.parameter 11
def Image.leakInterval (img : Image) : Nat := img.parameter 12
def Image.phantomThreshold (img : Image) : Nat := img.parameter 13
def Image.averagingInterval (img : Image) : Nat := img.parameter 14
def Image.thresholdLo (img : Image) : Nat := img.parameter 15
def Image.thresholdMid (img : Image) : Nat := img.parameter 16
def Image.thresholdHi (img : Image) : Nat := img.parameter 17
def Image.hysteresis (img : Image) : Nat := img.parameter 18
/-- Whether the intake order is AGE (R33). -/
def Image.intakeByAge (img : Image) : Bool := img.parameter 19 == 1
def Image.severeThreshold (img : Image) : Nat := img.parameter 20
def Image.lateThreshold (img : Image) : Nat := img.parameter 21
def Image.earlyThreshold (img : Image) : Nat := img.parameter 22

/-- Whether an approach's enable is on (R14). -/
def Image.enabled (img : Image) (a : ApproachNo) : Bool := img.enables.approach.get a

/-- Whether an entry of the ROUTE RANGE table matches a route (R12). -/
def RouteRange.admits (e : RouteRange) (r : Nat) : Bool := decide (e.low ≤ r) && decide (r ≤ e.high)

/-- The group of a route: that of the lowest-numbered entry matching it, or unplaced (R12). -/
def Image.placeRoute (img : Image) (r : Nat) : Option GroupNo :=
  (img.routes.toList.find? (fun e => e.admits r)).map (·.group)

/-- Whether `k` is a stop of an approach: a reach below the last in use whose stop flag is yes (R9, R10). -/
def Image.isStop (img : Image) (a : ApproachNo) (k : Nat) : Bool :=
  decide (k + 1 < (img.approach a).reachCount) &&
    (((img.reachesInUse a)[k]?).map (·.stop)).getD false

/-- Whether a ring of `count` phases holds a phase: a ring lookup for one at or beyond the count answers that it is not in the ring (R5). -/
def inRing (count : Nat) (p : PhaseNo) : Bool := decide (p.val < count)

/-- The phases strictly between two phases of a ring, in ring order; when they are equal, every other phase
of the ring (R5). Nothing lies between two phases that are not both in the ring (log 48). -/
def phasesBetween (count : Nat) (a b : PhaseNo) : List PhaseNo :=
  let gap := if a = b then count else (b.val + count - a.val) % count
  if inRing count a && inRing count b then
    (List.range (gap - 1)).filterMap fun i => numbered 8 ((a.val + 1 + i) % count)
  else []

/-! ### Structural conditions (R20) -/

/-- Condition 1: an approach whose junction is present names a junction that is present. -/
def Image.bound (img : Image) (a : ApproachNo) : Bool :=
  match (img.approach a).junction with
  | none => true
  | some j => (img.junction j).present

/-- Condition 2: an enabled approach has a junction, and its bus phase lies below the junction's phase count. -/
def Image.servable (img : Image) (a : ApproachNo) : Bool :=
  !img.enabled a ||
    match (img.approach a).junction with
    | none => false
    | some j => decide ((img.approach a).busPhase.val < (img.junction j).phaseCount)

/-- Condition 3: an ENTRY entry whose approach is present names an approach that has a junction. -/
def Image.entryBound (img : Image) (e : EntryId) : Bool :=
  match (img.entries.get e).approach with
  | none => true
  | some a => (img.approach a).junction.isSome

/-- The three structural conditions of the working image (R20). -/
def Image.consistent (img : Image) : Bool :=
  (List.finRange 16).all img.bound && (List.finRange 16).all img.servable && (List.finRange 4).all img.entryBound

end Sys2Proof.Machine
end

