-- ==== Sys2Proof/Config.lean ====
section
/-!
DEFINITION. Config.lean: the values the manual leaves open, as constants without a body: nothing can be
proved of them, so a claim holds whatever they are. Each is applied to a counter of State (`freeIndex`).
-/
namespace Sys2Proof.Config

/-- A free number, for a field to which no rule gives a value at the event that makes it (logs 7, 8). -/
opaque freeNat : Nat → Nat

/-- The image a store holds after a failed or interrupted write (R184, log 6). -/
opaque damagedImage : Nat → Machine.Image

/-- Whether a store write that a cold start cut short had reached an entry of the image, numbered in table order and index order (R184, log 6). -/
opaque entryWritten : Nat → Nat → Bool

/-- The word a store holds after a failed or interrupted write, before it is kept apart from the word that
would match (R184, log 6). -/
opaque damagedWord : Nat → CheckWord

/-- The request number answered to a request frame that carries none, by its kind (R169, log 9). -/
opaque missingRequestNumber : Byte → Byte

/-- What a duration beyond 65535 ds is carried as in its two bytes (R185, log 13). -/
opaque wideDuration : Nat → Nat

end Sys2Proof.Config
end

