-- ==== Sys2Proof/Machine/State.lean ====
section
/-!
DEFINITION. Machine/State.lean: everything the manual gives the unit to hold, as plain data, and the state
right after reset. INVENTORY.md lists each field with the rule that names it.
-/
namespace Sys2Proof.Machine

/-! ### Intake (R24–R28) -/

/-- A radio report that has passed the checks of R25, with its arrival stamp (R26). -/
structure Report where
  vehicle : Nat
  approach : ApproachNo
  body : ReportBody
  stamp : Clock
  deriving DecidableEq, Repr, Inhabited

/-- R27. -/
inductive SlotCode where
  | inactive | empty | full | overrun
  deriving DecidableEq, Repr, Inhabited

/-- An intake slot (R27). Kind switches are indexed in the order of R24. -/
structure Slot where
  code : SlotCode
  approachSwitches : Vector Bool 16
  kindSwitches : Vector Bool 6
  report : Option Report
  overrunFlag : Bool
  deriving DecidableEq, Repr, Inhabited

/-! ### Hand-ons (R63, R65) -/

/-- A record of the corridor queue (R63). -/
structure HandOn where
  vehicle : Nat
  route : Nat
  deviation : Int
  entry : EntryId
  stamp : Clock
  deriving DecidableEq, Repr, Inhabited

/-- An outgoing hand-on (R65). -/
structure OutHandOn where
  vehicle : Nat
  route : Nat
  deviation : Int
  entry : EntryId
  deriving DecidableEq, Repr, Inhabited

/-! ### Tracks (R40–R42, R60) -/

inductive TrackState where
  | expected | approaching | dwelling | cleared
  deriving DecidableEq, Repr, Inhabited

/-- The classes by lateness (R13, R84), in index order. -/
inductive LateClass where
  | severe | late | onTime | early
  deriving DecidableEq, Repr, Inhabited

/-- Service received (R50). -/
inductive Action where
  | none | extend | early | earlyExtend | ride
  deriving DecidableEq, Repr, Inhabited

/-- A pending journey record (R60). -/
structure Journey where
  vehicle : Nat
  route : Nat
  junction : JunctionNo
  approach : ApproachNo
  firstListed : Option Clock
  firstEta : Option Clock
  lastEta : Clock
  passTime : Clock
  action : Action
  borrowed : Nat
  cls : LateClass
  deriving DecidableEq, Repr, Inhabited

/-- A valid track (R42), with its stale and dwell deadlines (R44, R54, R57, R59). -/
structure Track where
  vehicle : Nat
  route : Nat
  group : GroupNo
  state : TrackState
  approach : Option ApproachNo
  reach : ReachNo
  distance : Nat
  speed : Nat
  reportTime : Clock
  lastSeen : Option Clock
  deviation : Option Int
  stopArrive : Option Clock
  dwellStop : Option Nat
  lastDeparted : Option Nat
  eta : Option Clock
  nominal : Nat
  lateness : Int
  cls : LateClass
  tier : Nat
  pinned : Bool
  listed : Option JunctionNo
  firstListed : Option Clock
  firstEta : Option Clock
  lastEta : Option Clock
  action : Action
  borrowed : Nat
  journey : Option Journey
  expectDeadline : Option Clock
  referralOpen : Bool
  superseded : Nat
  staleDeadline : Option Clock
  dwellDeadline : Option Clock
  deriving DecidableEq, Repr, Inhabited

/-- A set of the Track Table (R40) and its age bit (R41). An invalid way holds nothing. -/
structure TrackSet where
  a : Option Track
  b : Option Track
  age : Way
  deriving DecidableEq, Repr, Inhabited

/-- A way of a set: a track's place in the table (R40). -/
structure Place where
  set : SetNo
  way : Way
  deriving DecidableEq, Repr, Inhabited

/-! ### Anomalies (R147–R151) -/

inductive AnomalyClass where
  | distance | reversal | horizon | dwell | conflict | unplaced
  deriving DecidableEq, Repr, Inhabited

/-- Where an anomaly arose: an approach, or a junction for CONFLICT (R147). -/
inductive AnomalyPlace where
  | approach (a : ApproachNo)
  | junction (j : JunctionNo)
  deriving DecidableEq, Repr, Inhabited

structure LastCause where
  cls : AnomalyClass
  vehicle : Nat
  place : AnomalyPlace
  time : Clock
  deriving DecidableEq, Repr, Inhabited

/-- What a conflict passes of each of its two requests (R105). -/
structure Claim where
  vehicle : Nat
  tier : Nat
  busPhase : PhaseNo
  eta : Clock
  deriving DecidableEq, Repr, Inhabited

/-- The figures an anomaly passes (R147). -/
inductive Figures where
  | distance (reported length : Nat)
  | reversal (candidate previous tolerance : Nat)
  | horizon (delta horizon : Nat)
  | dwell (stop : Nat) (arrived : Clock) (cap : Nat)
  | conflict (winner other : Claim)
  | unplaced (route : Nat)
  deriving DecidableEq, Repr, Inhabited

/-- What waits on a referral and is handed back at its end (R151, R154–R156). For a held report `first` says that it
allocated its track or started its approach (R150), and `candidate` is the candidate distance where a default or a
substitution has changed it, and absent where it is the report's own (R74, log 21). `redwell` is a dwell returned with a remaining dwell and then held for HORIZON (R87). -/
inductive Held where
  | report (r : Report) (first : Bool) (candidate : Option Nat)
  | dwell
  | redwell (remaining : Nat)
  | conflict (winner other : Nat)
  deriving DecidableEq, Repr, Inhabited

/-- The open referral (R151). `superseded` counts for an UNPLACED referral; a track's referral shows its track's
count (R152). -/
structure Referral where
  cls : AnomalyClass
  vehicle : Nat
  place : AnomalyPlace
  held : Held
  figures : Figures
  opening : Clock
  deadline : Clock
  superseded : Nat
  deriving DecidableEq, Repr, Inhabited

/-- How a referral ends for its matter (R154, R155). -/
inductive Disposal where
  | default | discard | substitute (value : Nat)
  deriving DecidableEq, Repr, Inhabited

/-- A matter handed back by AU (R153, R157). -/
structure Return where
  referral : Referral
  disposal : Disposal
  deriving DecidableEq, Repr, Inhabited

/-! ### The Track Manager's stall (R43, R61) -/

/-- Why a request is withdrawn as lost (R94). -/
inductive LossCause where
  | evicted | stale | checkedOut | moved
  deriving DecidableEq, Repr, Inhabited

/-- The cause of a withdrawal (R49, R94). -/
inductive Cause where
  | passed
  | withdrawn
  | lost (why : LossCause)
  deriving DecidableEq, Repr, Inhabited

/-- The work TM has in hand while a write-back stalls (R61): what is left to do once the record of the track at the
place has left it. -/
inductive Work where
  | invalidate (why : LossCause)
  | allocateReport (r : Report) (group : GroupNo)
  | allocateHandOn (h : HandOn) (group : GroupNo) (linkTime : Nat)
  | startApproach (r : Report)
  deriving DecidableEq, Repr, Inhabited

/-- A stall (R61): the place of the track whose record waits, the work in hand, the stall limit and the notice number the
offer took (R177). -/
structure Stall where
  place : Place
  work : Work
  limit : Clock
  number : NoticeNumber
  deriving DecidableEq, Repr, Inhabited

inductive DeadlineKind where
  | stale | expect | dwell
  deriving DecidableEq, Repr, Inhabited

/-- An expiry or a return that fell due during a stall (R43). An expiry names its track's vehicle and the deadline that
fell due, so that a replaced deadline has no effect, and the clock at which it fell due. -/
inductive Waiting where
  | expiry (kind : DeadlineKind) (place : Place) (vehicle : Nat) (deadline time : Clock)
  | returned (m : Return)
  deriving DecidableEq, Repr, Inhabited

/-! ### Junction arbiters (R88–R134, R141) -/

inductive RequestState where
  | waiting | held | granted | riding | servedByPlan
  deriving DecidableEq, Repr, Inhabited

inductive HoldReason where
  | gate | floor | unconfirmed | dwelling | referral | staleMirror | frozen | recovering
  deriving DecidableEq, Repr, Inhabited

/-- The verdicts kept as an entry's last verdict (R104). -/
inductive LastVerdict where
  | servedByPlan | tooSmall | miss | defer | budget | limit
  deriving DecidableEq, Repr, Inhabited

/-- A Request List entry (R88). -/
structure Entry where
  vehicle : Nat
  way : Way
  approach : ApproachNo
  busPhase : PhaseNo
  tier : Nat
  cls : LateClass
  eta : Clock
  suspended : Bool
  firstListed : Clock
  confirmed : Bool
  referred : Bool
  state : RequestState
  hold : Option HoldReason
  verdict : Option LastVerdict
  deriving DecidableEq, Repr, Inhabited

/-- The Plan Mirror's contents (R109). -/
structure Mirror where
  phase : PhaseNo
  interval : Interval
  elapsed : Nat
  remaining : Nat
  receipt : Clock
  deriving DecidableEq, Repr, Inhabited

/-- The last detector call passed on (R111). -/
structure DetectorRecord where
  approach : Nat
  presence : Nat
  receipt : Clock
  deriving DecidableEq, Repr, Inhabited

/-- The contents of an order (R115, R116). -/
inductive Order where
  | extend (phase : PhaseNo) (total : Nat)
  | early (phase : PhaseNo) (cuts : List (PhaseNo × Nat))
  | release (phase : PhaseNo)
  | cancel
  deriving DecidableEq, Repr, Inhabited

inductive OrderKind where
  | extend | early | release | cancel
  deriving DecidableEq, Repr, Inhabited

/-- An order with its junction and tag, as it goes out on the signal port (R117, R188). -/
structure SentOrder where
  junction : JunctionNo
  tag : Tag
  order : Order
  deriving DecidableEq, Repr, Inhabited

/-- The outstanding order record (R117). `ofGrant` says whether it belongs to the junction's grant (R118). -/
structure Outstanding where
  order : Order
  tag : Tag
  deadline : Clock
  ofGrant : Bool
  deriving DecidableEq, Repr, Inhabited

/-- The order of the pending-order slot (R117), and whether it is an order of the grant (R118). -/
structure PendingOrder where
  order : Order
  ofGrant : Bool
  deriving DecidableEq, Repr, Inhabited

inductive GrantKind where
  | extend | early
  deriving DecidableEq, Repr, Inhabited

inductive Ending where
  | passed | lost | withdrawn | expired | served | preempted | fault
  deriving DecidableEq, Repr, Inhabited

/-- The vehicle and way of a request (R120). -/
structure TrackRef where
  vehicle : Nat
  way : Way
  deriving DecidableEq, Repr, Inhabited

/-- The grant record (R120). `lastHolder` is the holder or, once it has left, the last one (R122, R131); `startDue` says that
the first order's ACCEPTED, at which the GRANT start notice is queued, is still to come (R122). -/
structure Grant where
  holder : Option TrackRef
  busPhase : PhaseNo
  kind : GrantKind
  windowStart : Clock
  bound : Clock
  plannedEnd : Option Clock
  extensionInForce : Nat
  cut : Nat
  cutCharged : Nat
  extensionCharged : Nat
  chargeWindow : WindowNumber
  closing : Bool
  target : Option Nat
  candidate : Option Nat
  ending : Option Ending
  lastHolder : TrackRef
  startDue : Bool
  deriving DecidableEq, Repr, Inhabited

inductive JunctionState where
  | idle | awaitRuling | ordering | inForce | recovery | frozen
  deriving DecidableEq, Repr, Inhabited

/-- A ruling carry (R107). -/
structure Carry where
  preferred : Option Nat
  deriving DecidableEq, Repr, Inhabited

inductive FaultKind where
  | refused | noAck | badAck
  deriving DecidableEq, Repr, Inhabited

/-- The sticky fault flags (R133). -/
structure FaultFlags where
  refused : Bool
  noAck : Bool
  badAck : Bool
  deriving DecidableEq, Repr, Inhabited

/-- One junction's arbiter and mirror. -/
structure Junction where
  list : List Entry
  gate : Gate
  saved : Option Gate
  carry : Option Carry
  mirror : Option Mirror
  stale : Bool
  staleDeadline : Option Clock
  lastCall : Option DetectorRecord
  state : JunctionState
  faults : FaultFlags
  tagCounter : Tag
  outstanding : Option Outstanding
  pendingOrder : Option PendingOrder
  abandoned : Option (Tag × OrderKind)
  discard : List Tag
  grant : Option Grant
  sequenceBorrowed : Nat
  recoveryDeadline : Option Clock
  used : Nat
  windowNumber : WindowNumber
  windowDeadline : Clock
  deriving DecidableEq, Repr, Inhabited

/-! ### Load Monitor (R135) and Reliability Counters (R161) -/

inductive Level where
  | normal | lo | mid | hi
  deriving DecidableEq, Repr, Inhabited

/-- The sticky rise flags of a junction (R139). -/
structure RiseFlags where
  lo : Bool
  mid : Bool
  hi : Bool
  deriving DecidableEq, Repr, Inhabited

structure Load where
  sum : Nat
  count : Nat
  average : Nat
  level : Level
  rises : RiseFlags
  deriving DecidableEq, Repr, Inhabited

structure FaultRecord where
  vehicle : Nat
  junction : JunctionNo
  time : Clock
  deriving DecidableEq, Repr, Inhabited

structure Reliability where
  phantoms : Nat
  secondary : Nat
  overFlag : Bool
  fault : Option FaultRecord
  tagged : Bool
  deriving DecidableEq, Repr, Inhabited

/-! ### Configuration Store (R180) -/

structure StoredImage where
  tables : Image
  word : CheckWord
  deriving DecidableEq, Repr, Inhabited

inductive StoreCondition where
  | sound | writing | damaged
  deriving DecidableEq, Repr, Inhabited

/-- Cause of a START notice (R177). -/
inductive StartCause where
  | cold | warm
  deriving DecidableEq, Repr, Inhabited

/-! ### Notices (R177) and replies (R169, R174) -/

/-- The fields of each kind of notice (R177). `startPassed` and results are true for PASSED and OK. -/
inductive NoticeBody where
  | start (cause : StartCause) (startPassed : Bool) (condition : StoreCondition) (lock : Bool) (lastCommit : Option Bool)
  | journey (j : Journey)
  | referral (cls : AnomalyClass) (vehicle : Nat) (place : AnomalyPlace) (opening : Clock) (figures : Figures)
      (other : Option Nat) (route : Option Nat)
  | fault (j : JunctionNo) (kind : FaultKind) (tag : Tag)
  | level (j : JunctionNo) (into left : Level) (average : Nat) (time : Clock)
  | threshold (a : ApproachNo) (j : JunctionNo) (vehicle : Nat) (time : Clock) (threshold : Nat)
  | grantStart (j : JunctionNo) (holder : Nat) (phase : PhaseNo) (kind : GrantKind) (amount : Nat)
  | grantEnd (j : JunctionNo) (holder : Nat) (phase : PhaseNo) (ending : Ending) (borrowed : Nat)
  | commitDone (ok : Bool)
  deriving DecidableEq, Repr, Inhabited

structure Notice where
  number : NoticeNumber
  body : NoticeBody
  deriving DecidableEq, Repr, Inhabited

/-- The reply results (R169). -/
inductive Result where
  | ok | okDeferred | malformed | range | locked | busy | noReferral | staleRuling | inconsistent | notFound
  deriving DecidableEq, Repr, Inhabited

/-- What READ STATUS shows of one junction (R174). -/
structure JunctionStatus where
  state : JunctionState
  faults : FaultFlags
  level : Level
  rises : RiseFlags
  deriving DecidableEq, Repr, Inhabited

/-- The open referral as it is shown, with its superseded count of R152 (R159). -/
structure ReferralView where
  cls : AnomalyClass
  vehicle : Nat
  place : AnomalyPlace
  report : Option Report
  other : Option Nat
  figures : Figures
  opening : Clock
  deadline : Clock
  superseded : Nat
  deriving DecidableEq, Repr, Inhabited

/-- The reply to READ STATUS (R174). -/
structure StatusView where
  clock : Clock
  overflow : Bool
  queued : Nat
  nextNumber : NoticeNumber
  slots : Vector (SlotCode × Bool) 16
  hold : Option SlotNo
  junctions : Vector JunctionStatus 4
  anomalyFlags : Vector Bool 6
  lastCause : Option LastCause
  referral : Option ReferralView
  reliability : Vector Reliability 16
  leakDeadline : Clock
  startPassed : Bool
  condition : StoreCondition
  lock : Bool
  committing : Bool
  lastCommit : Option Bool
  deriving DecidableEq, Repr, Inhabited

/-- The reply to READ JUNCTION (R174, R108, R146). -/
structure JunctionView where
  present : Bool
  state : JunctionState
  faults : FaultFlags
  abandoned : Option Tag
  discard : List Tag
  tagCounter : Tag
  outstanding : Option (Order × Tag × Clock)
  pendingOrder : Option Order
  grant : Option Grant
  sequenceBorrowed : Nat
  recoveryDeadline : Option Clock
  mirror : Option Mirror
  stale : Bool
  lastCall : Option DetectorRecord
  gate : Gate
  saved : Option Gate
  carry : Option Carry
  conflict : Option (Nat × Nat)
  average : Nat
  level : Level
  sum : Nat
  count : Nat
  rises : RiseFlags
  used : Nat
  windowNumber : WindowNumber
  windowDeadline : Clock
  cap : Nat
  floor : Nat
  budgetLeft : Nat
  deriving DecidableEq, Repr, Inhabited

/-- Every flag of the five kinds CLEAR FLAGS names (R173). -/
structure FlagView where
  overruns : Vector Bool 16
  rises : Vector RiseFlags 4
  anomalies : Vector Bool 6
  overs : Vector Bool 16
  overflow : Bool
  deriving DecidableEq, Repr, Inhabited

/-- The bodies of the replies, each as its owning rule gives it (R169). -/
inductive ReplyBody where
  | empty
  | status (v : StatusView)
  | track (t : Track)
  | set (a b : Option Track) (age : Way)
  | junction (v : JunctionView)
  | list (entries : List Entry)
  | slot (v : Slot)
  | slotConfig (code : SlotCode) (approachSwitches : Vector Bool 16) (kindSwitches : Vector Bool 6) (overrunFlag : Option Bool)
  | entry (e : TableEntry)
  | thresholds (lo mid hi : Nat)
  | gate (live : Gate) (saved : Option Gate)
  | enables (e : Enables)
  | flags (v : FlagView)
  | faults (f : FaultFlags)
  | ruling (cls vehicle ruling : Nat) (value : Option Nat)
  | tag (tagged : Bool)
  | junctionState (s : JunctionState)
  | lock (isSet : Bool)
  deriving DecidableEq, Repr, Inhabited

/-- A reply (R169, R188). -/
structure Reply where
  kind : Byte
  number : Byte
  result : Result
  body : ReplyBody
  deriving DecidableEq, Repr, Inhabited

/-- The reply slot's reply (R171). `ahead` is how many answers of the busy list arrived before its request (R179). -/
structure SlotReply where
  reply : Reply
  ahead : Nat
  deriving DecidableEq, Repr, Inhabited

/-- A BUSY answer: the kind and number of the request as received (R170). -/
structure BusyAnswer where
  kind : Byte
  number : Byte
  deriving DecidableEq, Repr, Inhabited

/-- The frame in transmission on the supervisor port (R179). -/
inductive SupervisorFrame where
  | reply (r : Reply)
  | busy (b : BusyAnswer)
  | notice (n : Notice)
  deriving DecidableEq, Repr, Inhabited

/-- The four receivers: hunting (`none`), or in frame since the clock value of the marker (R186). -/
structure Receivers where
  supervisor : Option Clock
  radio : Option Clock
  signal : Option Clock
  corridor : Option Clock
  deriving DecidableEq, Repr, Inhabited

/-- The state of the unit. `pending` is the queue of commands that wait; `freeIndex` and `orderChoices` are the model's own
(logs 4, 5). -/
structure State where
  pending : List Instr
  clock : Clock
  image : Image
  receivers : Receivers
  signalFrame : Option SentOrder
  signalWaiting : List SentOrder
  corridorFrame : Option OutHandOn
  corridorWaiting : List OutHandOn
  slots : Vector Slot 16
  hold : Option SlotNo
  corridorQueue : List HandOn
  sets : Vector TrackSet 32
  stall : Option Stall
  waiting : List Waiting
  junctions : Vector Junction 4
  loads : Vector Load 4
  averagingDeadline : Option Clock
  anomalyFlags : Vector Bool 6
  lastCause : Option LastCause
  referral : Option Referral
  reliability : Vector Reliability 16
  leakDeadline : Clock
  marker : Bool
  replySlot : Option SlotReply
  busyList : List BusyAnswer
  supervisorFrame : Option SupervisorFrame
  noticeQueue : List Notice
  noticeCounter : NoticeNumber
  overflow : Bool
  stored : StoredImage
  condition : StoreCondition
  startPassed : Bool
  lock : Bool
  commit : Option Image
  lastCommit : Option Bool
  freeIndex : Nat
  orderChoices : List (Fin 24)
  deriving DecidableEq, Repr, Inhabited

/-- Why the machine could stop with a fault. No rule of the manual describes a state in which the unit takes no further
event, so there is no constructor: no meaning can stop with a fault (safe). -/
inductive Fault where
  deriving DecidableEq, Repr

/-- Why a command could be refused. -/
inductive Refusal where
  /-- Raised by an arm of `exec` whose command has no meaning yet (safe). Every command has one, so no arm raises it. -/
  | notModelled (mnemonic : String)
  deriving DecidableEq, Repr

/-! ### The state right after reset -/

/-- A slot at cold start (R27). -/
def coldSlot : Slot :=
  { code := .empty, approachSwitches := .replicate 16 true, kindSwitches := .replicate 6 true, report := none,
    overrunFlag := false }

/-- A set with both ways invalid and its age bit at A (R41, R42). -/
def emptySet : TrackSet := { a := none, b := none, age := .a }

def noFaults : FaultFlags := { refused := false, noAck := false, badAck := false }

def noRises : RiseFlags := { lo := false, mid := false, hi := false }

/-- A junction's load at a reset (R135). -/
def restLoad : Load := { sum := 0, count := 0, average := 0, level := .normal, rises := noRises }

/-- An approach's counters at cold start (R161). -/
def restReliability : Reliability :=
  { phantoms := 0, secondary := 0, overFlag := false, fault := none, tagged := false }

/-- A junction at cold start, its gate and window deadline given (R90, R98, R107, R109–R111, R117–R120, R132, R133, R141). -/
def coldJunction (gate : Gate) (deadline : Clock) : Junction :=
  { list := [], gate := gate, saved := none, carry := none, mirror := none, stale := true, staleDeadline := none,
    lastCall := none, state := .idle, faults := noFaults, tagCounter := 0, outstanding := none, pendingOrder := none,
    abandoned := none, discard := [], grant := none, sequenceBorrowed := 0, recoveryDeadline := none, used := 0,
    windowNumber := 0, windowDeadline := deadline }

/-- Every receiver hunting (R186). -/
def hunting : Receivers := { supervisor := none, radio := none, signal := none, corridor := none }

/-- The machine right after reset: the cold start of a unit whose stored image fails its check (R181, log 2). The START
notice took number 0, and the idle transmitter took it at the event that queued it (R177–R179, log 3). -/
def State.reset : State :=
  { pending := []
    clock := 0
    image := builtInDefaults
    receivers := hunting
    signalFrame := none
    signalWaiting := []
    corridorFrame := none
    corridorWaiting := []
    slots := .replicate 16 coldSlot
    hold := none
    corridorQueue := []
    sets := .replicate 32 emptySet
    stall := none
    waiting := []
    junctions := .replicate 4 (coldJunction defaultGate 3000)
    loads := .replicate 4 restLoad
    averagingDeadline := some 100
    anomalyFlags := .replicate 6 false
    lastCause := none
    referral := none
    reliability := .replicate 16 restReliability
    leakDeadline := 600
    marker := false
    replySlot := none
    busyList := []
    supervisorFrame := some (.notice { number := 0, body := .start .cold false .damaged false none })
    noticeQueue := []
    noticeCounter := 1
    overflow := false
    stored := { tables := builtInDefaults, word := 0 }
    condition := .damaged
    startPassed := false
    lock := false
    commit := none
    lastCommit := none
    freeIndex := 0
    orderChoices := [] }

end Sys2Proof.Machine
end

