-- ==== Sys2Proof/Machine/Ops.lean ====
section
/-!
DEFINITION. Machine/Ops.lean: the event in progress, and the named operations over State that the blocks share:
junctions, tracks, notices, orders, admission and the budget.
-/
namespace Sys2Proof.Machine

/-- The event in progress: the state as it stands, the junctions an evaluation trigger has reached (R102: one event gives
one evaluation, however many triggers it brings), the orders taken at the event (R186), oldest first, and the deadlines that TM's work in hand
has formed for its track (R43). -/
structure Event extends State where
  triggered : Vector Bool 4
  orders : List SentOrder
  formed : List DeadlineKind

/-- An event that has done nothing yet. -/
def startEvent (s : State) : Event := { s with triggered := .replicate 4 false, orders := [], formed := [] }

/-! ### Free values (logs 4, 5) -/

/-- The next free number, and the event with its index passed. -/
def freshNat (e : Event) : Nat × Event :=
  (Config.freeNat e.freeIndex, { e with freeIndex := e.freeIndex + 1 })

/-- The order of the four junctions that a choice stands for; choice 0 is J0 to J3. -/
def junctionOrder (c : Fin 24) : List JunctionNo :=
  let a := c.val % 4
  let b := c.val / 4 % 3
  let d := c.val / 12
  let four : List JunctionNo := [0, 1, 2, 3]
  let three := four.eraseIdx a
  let two := three.eraseIdx b
  (four.drop a).take 1 ++ (three.drop b).take 1 ++ (two.drop d).take 1 ++ two.eraseIdx d

/-- The order in which the junctions take an event that reaches several of them, and the event with that choice used up (R149,
R177: the rules give either order; log 5). -/
def takeOrder (e : Event) : List JunctionNo × Event :=
  (junctionOrder (e.orderChoices.headD 0), { e with orderChoices := e.orderChoices.tail })

/-- Which of two claims that meet at one event is taken first, TM's or another block's, and the event with that choice used up (R62; log 5):
choice 0 is TM's. -/
def takeClaim (e : Event) : Bool × Event :=
  (e.orderChoices.headD 0 == 0, { e with orderChoices := e.orderChoices.tail })

/-! ### Junctions -/

def State.junction (s : State) (j : JunctionNo) : Junction := s.junctions.get j

def State.setJunction (s : State) (j : JunctionNo) (x : Junction) : State :=
  { s with junctions := s.junctions.set j x }

/-- An update of one junction within an event. -/
def modJunction (j : JunctionNo) (f : Junction → Junction) (e : Event) : Event :=
  { e with toState := e.toState.setJunction j (f (e.junction j)) }

/-- An evaluation trigger reaches the junction (R102). -/
def trigger (j : JunctionNo) (e : Event) : Event := { e with triggered := e.triggered.set j true }

/-- Whether a junction is part of the segment (R5). -/
def State.present (s : State) (j : JunctionNo) : Bool := (s.image.junction j).present

/-- A junction number as a record carries it, where it names a present junction (R109, R111). -/
def State.presentJunction (s : State) (n : Nat) : Option JunctionNo :=
  (numbered 4 n).filter s.present

/-! ### Load and budget (R140, R143) -/

def State.load (s : State) (j : JunctionNo) : Load := s.loads.get j

/-- A load level's index (R15). -/
def levelIndex : Level → Fin 4
  | .normal => 0
  | .lo => 1
  | .mid => 2
  | .hi => 3

/-- The LEVEL entry of the junction's current level, read at the moment of use (R140). -/
def State.levelEntry (s : State) (j : JunctionNo) : LevelEntry :=
  s.image.levels.get (levelIndex (s.load j).level)

/-- The junction's tier floor (R140). -/
def State.tierFloor (s : State) (j : JunctionNo) : Nat := (s.levelEntry j).floor

/-- The junction's budget left: the cap less the used amount, and 0 where the used amount is at or above the cap (R143). -/
def State.budgetLeft (s : State) (j : JunctionNo) : Nat := (s.levelEntry j).cap - (s.junction j).used

/-! ### Tracks (R40) -/

/-- The place of a vehicle in a way: set v mod 32 (R40). -/
def placeOf (vehicle : Nat) (way : Way) : Place :=
  { set := ⟨vehicle % 32, Nat.mod_lt _ (by decide)⟩, way := way }

def State.track (s : State) (p : Place) : Option Track :=
  match p.way with
  | .a => (s.sets.get p.set).a
  | .b => (s.sets.get p.set).b

def State.putTrack (s : State) (p : Place) (t : Option Track) : State :=
  let x := s.sets.get p.set
  { s with sets := s.sets.set p.set (match p.way with | .a => { x with a := t } | .b => { x with b := t }) }

/-- Writing a way within an event. -/
def setTrack (p : Place) (t : Option Track) (e : Event) : Event :=
  { e with toState := e.toState.putTrack p t }

/-- An update of the track of a way, where the way holds one. -/
def modTrack (p : Place) (f : Track → Track) (e : Event) : Event :=
  match e.track p with
  | none => e
  | some t => setTrack p (some (f t)) e

/-- The lookup of a vehicle (R40): the way of its set that holds it. -/
def State.lookup (s : State) (vehicle : Nat) : Option Place :=
  let holds (w : Way) : Bool := ((s.track (placeOf vehicle w)).map (·.vehicle)) == some vehicle
  if holds .a then some (placeOf vehicle .a)
  else if holds .b then some (placeOf vehicle .b)
  else none

/-- The places of the Track Table, set by set (R40). -/
def allPlaces : List Place :=
  (List.finRange 32).flatMap fun k => [{ set := k, way := .a }, { set := k, way := .b }]

/-- An update of every valid track. -/
def mapTracks (f : Track → Track) (e : Event) : Event :=
  { e with sets := Vector.ofFn fun k =>
      let x := e.sets.get k
      { x with a := x.a.map f, b := x.b.map f } }

/-- A notice of a junction arbiter to TM about the request of a vehicle and way: it acts where the way still holds the vehicle
and the track is listed at the junction, and changes nothing otherwise (R40, R49). -/
def noticeTrack (j : JunctionNo) (r : TrackRef) (f : Track → Track) (e : Event) : Event :=
  modTrack (placeOf r.vehicle r.way)
    (fun t => if t.vehicle = r.vehicle ∧ t.listed = some j then f t else t) e

/-! ### Notices (R177) -/

/-- Whether the notice queue has room (R177). -/
def State.noticeRoom (s : State) : Bool := decide (s.noticeQueue.length < 16)

/-- An offer of a notice other than JOURNEY (R177): it takes the counter's value, and is queued where there is room, or dropped
with the overflow flag set. -/
def offer (b : NoticeBody) (e : Event) : Event :=
  let e' := { e with noticeCounter := e.noticeCounter + 1 }
  if e.noticeRoom then
    { e' with noticeQueue := e.noticeQueue ++ [{ number := e.noticeCounter, body := b }] }
  else { e' with overflow := true }

/-- The START notice's fields as they stand (R181). -/
def startNotice (cause : StartCause) (s : State) : NoticeBody :=
  .start cause s.startPassed s.condition s.lock s.lastCommit

/-! ### Orders (R117, R186) -/

def orderKind : Order → OrderKind
  | .extend _ _ => .extend
  | .early _ _ => .early
  | .release _ => .release
  | .cancel => .cancel

/-- Whether an order asks for new time: EXTEND or EARLY. -/
def asksTime : OrderKind → Bool
  | .extend => true
  | .early => true
  | .release => false
  | .cancel => false

/-- Sending an order with the junction's next tag, the unit awaiting its ACK (R117). An EXTEND or EARLY empties the abandoned
tag and the discard set (R118). -/
def sendOrder (j : JunctionNo) (o : Order) (ofGrant : Bool) (e : Event) : Event :=
  let x := e.junction j
  let fresh := asksTime (orderKind o)
  let x' := { x with
    outstanding := some { order := o, tag := x.tagCounter, deadline := after e.clock 20, ofGrant := ofGrant }
    tagCounter := x.tagCounter + 1
    abandoned := if fresh then none else x.abandoned
    discard := if fresh then [] else x.discard }
  { e with toState := e.toState.setJunction j x', orders := e.orders ++ [{ junction := j, tag := x.tagCounter, order := o }] }

/-- An order needed: sent where none is outstanding, and placed in the pending slot otherwise, replacing what it holds (R117). -/
def needOrder (j : JunctionNo) (o : Order) (ofGrant : Bool) (e : Event) : Event :=
  if (e.junction j).outstanding.isSome then
    modJunction j (fun x => { x with pendingOrder := some { order := o, ofGrant := ofGrant } }) e
  else sendOrder j o ofGrant e

/-- An order reaches the signal transmitter: its frame begins where the transmitter is idle; otherwise it waits, and it is dropped
where 8 wait (R186). -/
def takeOrderFrame (s : State) (o : SentOrder) : State :=
  match s.signalFrame with
  | none => { s with signalFrame := some o }
  | some _ => if s.signalWaiting.length < 8 then { s with signalWaiting := s.signalWaiting ++ [o] } else s

/-- The orders of one event in the order the transmitter takes them: in junction order from J0, those of one junction as it sent
them (R186). -/
def inJunctionOrder (os : List SentOrder) : List SentOrder :=
  (List.finRange 4).flatMap fun j => os.filter fun o => o.junction == j

/-- The signal transmitter takes the orders of the event (R186). -/
def transmitOrders (e : Event) : State :=
  (inJunctionOrder e.orders).foldl takeOrderFrame e.toState

/-! ### The Request List (R88, R89) -/

/-- The list order: tier descending, ETA ascending, approach ascending, vehicle ascending (R89). -/
def sortsBefore (x y : Entry) : Bool :=
  if x.tier ≠ y.tier then decide (y.tier < x.tier)
  else if x.eta ≠ y.eta then earlier x.eta y.eta
  else if x.approach ≠ y.approach then decide (x.approach < y.approach)
  else decide (x.vehicle < y.vehicle)

/-- An entry placed at its position (R89): before the first entry that it sorts before. Entries that keep a place which an update has put out of the order
(R106) are passed where the next of the others sorts before it, so that the others stay in their order (DESIGN CHOICE, log 57). -/
def insertEntry (kept : Entry → Bool) (x : Entry) : List Entry → List Entry
  | [] => [x]
  | y :: ys =>
    if sortsBefore x y && (!kept y || (ys.find? fun z => !kept z).all fun z => sortsBefore x z) then x :: y :: ys
    else y :: insertEntry kept x ys

def findEntry (vehicle : Nat) (l : List Entry) : Option Entry := l.find? fun x => x.vehicle == vehicle

def removeEntry (vehicle : Nat) (l : List Entry) : List Entry := l.filter fun x => x.vehicle != vehicle

/-- An update of the entry of a vehicle in its place. -/
def updateEntry (vehicle : Nat) (f : Entry → Entry) (l : List Entry) : List Entry :=
  l.map fun x => if x.vehicle == vehicle then f x else x

/-- The request of a vehicle takes a state, and TM is sent the notice: it pins the track of a GRANTED or RIDING request, unpins it
otherwise, and records RIDE for a bus that rides with no action received (R48, R50, R95). -/
def setRequestState (j : JunctionNo) (x : Entry) (state : RequestState) (verdict : Option LastVerdict) (e : Event) : Event :=
  let claims := state == .granted || state == .riding
  noticeTrack j { vehicle := x.vehicle, way := x.way }
    (fun t => { t with
      pinned := claims
      action := if state == .riding && t.action == .none then .ride else t.action })
    (modJunction j (fun y => { y with
      list := updateEntry x.vehicle (fun z => { z with state := state, hold := none, verdict := verdict }) y.list }) e)

/-! ### Admission (R96–R98) -/

/-- Whether a live gate admits a tier of 1 to 3 (R98). -/
def gateAdmits (g : Gate) (tier : Nat) : Bool :=
  match g.mode with
  | .uniform => !g.m
  | .split => !g.m || (!g.u && decide (g.tu ≤ tier))

/-- The first of the admission conditions 2 to 8 that fails for an entry of a junction (R96). -/
def holdApartFromGate (s : State) (j : JunctionNo) (x : Entry) : Option HoldReason :=
  let y := s.junction j
  if x.tier < s.tierFloor j then some .floor
  else if (s.reliability.get x.approach).tagged && !x.confirmed then some .unconfirmed
  else if x.suspended then some .dwelling
  else if x.referred then some .referral
  else if y.stale then some .staleMirror
  else if y.state = .frozen then some .frozen
  else if y.state = .recovery then some .recovering
  else none

/-- The hold reason of the first admission condition that fails (R96). -/
def holdReason (s : State) (j : JunctionNo) (x : Entry) : Option HoldReason :=
  if gateAdmits (s.junction j).gate x.tier then holdApartFromGate s j x else some .gate

def admissible (s : State) (j : JunctionNo) (x : Entry) : Bool := (holdReason s j x).isNone

def admissibleApartFromGate (s : State) (j : JunctionNo) (x : Entry) : Bool := (holdApartFromGate s j x).isNone

/-- The review of one entry (R97). -/
def reviewEntry (s : State) (j : JunctionNo) (x : Entry) : Entry :=
  if x.state = .granted ∨ x.state = .riding then x
  else match holdReason s j x with
    | some r => { x with state := .held, hold := some r }
    | none => if x.state = .held then { x with state := .waiting, hold := none } else x

/-- The review of every entry of a junction (R97). An entry whose inputs have not changed keeps its state by it. -/
def review (j : JunctionNo) (e : Event) : Event :=
  modJunction j (fun y => { y with list := y.list.map (reviewEntry e.toState j) }) e

/-! ### The tier gate (R99, R100) -/

/-- The live gate after the arbiter closes it for a winner's tier (R99). -/
def closeGate (g : Gate) (tier : Nat) : Gate :=
  match g.mode with
  | .uniform => { g with m := true }
  | .split => if tier < g.tu then { g with m := true } else { g with m := true, u := true }

/-- The restore of the gate where a saved copy is present (R100). -/
def restoreGate (x : Junction) : Junction :=
  match x.saved with
  | none => x
  | some g => { x with gate := g, saved := none }

/-! ### Charges and refunds (R144, R145) -/

/-- A charge offered to the junction's window: the amount taken, and the event after it. A charge is a change of budget left, and so an evaluation trigger,
whatever part of the offer is taken; an offer of 0 changes nothing (R143, R144). -/
def charge (j : JunctionNo) (offered : Nat) (e : Event) : Nat × Event :=
  let taken := min offered (e.budgetLeft j)
  let e' := modJunction j (fun x => { x with used := x.used + taken }) e
  (taken, if offered = 0 then e' else trigger j e')

/-- A refund offered to the junction's window with the grant's charge window (R145). -/
def refund (j : JunctionNo) (amount : Nat) (window : WindowNumber) (e : Event) : Event :=
  let x := e.junction j
  let taken := if x.windowNumber = window then min amount x.used else 0
  let e' := modJunction j (fun x => { x with used := x.used - taken }) e
  if taken = 0 then e' else trigger j e'

/-! ### Deadlines (R1) -/

/-- Whether a deadline has fallen due: it is present and not later than the clock (R1, R43, log 10). -/
def State.due (s : State) (d : Option Clock) : Bool :=
  match d with
  | none => false
  | some t => !later t s.clock

end Sys2Proof.Machine
end

