-- ==== Sys2Proof/Machine/Anomaly.lean ====
section
/-!
DEFINITION. Machine/Anomaly.lean: the Anomaly Unit's shared operations: deciding an anomaly, opening and withdrawing a referral
(Chapter 8), and the phantom count of the Reliability Counters (R162).
-/
namespace Sys2Proof.Machine

/-- The index of a class among the anomaly flags and in frames (R148, R189). -/
def anomalyIndex : AnomalyClass → Fin 6
  | .distance => 0
  | .reversal => 1
  | .horizon => 2
  | .dwell => 3
  | .conflict => 4
  | .unplaced => 5

/-- Whether an anomaly of a class is referable: UNPLACED always, the others by their referral enable (R14, R149). -/
def State.referable (s : State) (c : AnomalyClass) : Bool :=
  match c with
  | .distance => s.image.enables.referral.get 0
  | .reversal => s.image.enables.referral.get 1
  | .horizon => s.image.enables.referral.get 2
  | .dwell => s.image.enables.referral.get 3
  | .conflict => s.image.enables.referral.get 4
  | .unplaced => true

/-- The second vehicle of a CONFLICT referral (R151). -/
def Referral.other (r : Referral) : Option Nat :=
  match r.figures with
  | .conflict _ o => some o.vehicle
  | _ => none

/-- The route a REFERRAL notice carries for UNPLACED (R151). -/
def Referral.route (r : Referral) : Option Nat :=
  match r.figures with
  | .unplaced route => some route
  | _ => none

/-- An anomaly raised by a block: what AU records of it and holds of it (R147). -/
structure Anomaly where
  cls : AnomalyClass
  vehicle : Nat
  place : AnomalyPlace
  figures : Figures
  held : Held

/-- AU decides an anomaly at the event at which it is raised (R149): whether it is held, and the event after. A held anomaly opens the
referral slot and queues its REFERRAL notice (R151); any other sets the class's flag. -/
def raiseAnomaly (a : Anomaly) (e : Event) : Bool × Event :=
  let e1 : Event :=
    { e with lastCause := some { cls := a.cls, vehicle := a.vehicle, place := a.place, time := e.clock } }
  if e.referable a.cls && e.referral.isNone then
    let r : Referral :=
      { cls := a.cls, vehicle := a.vehicle, place := a.place, held := a.held, figures := a.figures, opening := e.clock,
        deadline := after e.clock e.image.referralTimeout, superseded := 0 }
    (true, offer (.referral r.cls r.vehicle r.place r.opening r.figures r.other r.route) { e1 with referral := some r })
  else
    (false, { e1 with anomalyFlags := e.anomalyFlags.set (anomalyIndex a.cls) true })

/-- Whether the open referral holds a report or a dwell of a vehicle's track (R151): UNPLACED has no track. -/
def Referral.ofTrack (r : Referral) (vehicle : Nat) : Bool :=
  match r.cls with
  | .conflict => false
  | .unplaced => false
  | .distance => r.vehicle == vehicle
  | .reversal => r.vehicle == vehicle
  | .horizon => r.vehicle == vehicle
  | .dwell => r.vehicle == vehicle

/-- Whether the open referral is a CONFLICT of a junction (R151). -/
def Referral.conflictAt (r : Referral) (j : JunctionNo) : Bool :=
  r.cls == .conflict && r.place == .junction j

/-- Whether a vehicle is one of the two of a CONFLICT referral (R106). -/
def Referral.claims (r : Referral) (vehicle : Nat) : Bool :=
  r.vehicle == vehicle || r.other == some vehicle

/-- Whether the entry of a vehicle is one of the two of the open CONFLICT referral of a junction, which keep their places (R106). -/
def State.keepsPlace (s : State) (j : JunctionNo) (vehicle : Nat) : Bool :=
  (s.referral.map fun r => r.conflictAt j && r.claims vehicle).getD false

/-- A junction's list when a referral ends: the two entries of its CONFLICT, which kept their places, take their positions again (R89, R106; DESIGN CHOICE, log 57). -/
def Referral.reorder (r : Referral) (j : JunctionNo) (l : List Entry) : List Entry :=
  if r.conflictAt j then
    (l.filter fun x => r.claims x.vehicle).foldl (fun l x => insertEntry (fun _ => false) x l) (l.filter fun x => !r.claims x.vehicle)
  else l

/-- AU empties its slot (R153, R157, R158). -/
def closeReferral (e : Event) : Event :=
  match e.referral with
  | none => e
  | some r =>
    let e1 : Event := { e with referral := none }
    match r.place with
    | .approach _ => e1
    | .junction j => modJunction j (fun x => { x with list := r.reorder j x.list }) e1

/-- The withdrawal of the referral of a track that goes away: the slot empties, and nothing else is done (R56, R158). -/
def withdrawTrackReferral (vehicle : Nat) (e : Event) : Event :=
  if (e.referral.map fun r => r.ofTrack vehicle).getD false then closeReferral e else e

/-- The withdrawal of a junction's conflict referral (R106, R158): the slot empties. -/
def withdrawConflict (j : JunctionNo) (e : Event) : Event :=
  if (e.referral.map fun r => r.conflictAt j).getD false then closeReferral e else e

/-- A phantom reported to RC (R160, R162). -/
def countPhantom (a : ApproachNo) (vehicle : Nat) (j : JunctionNo) (e : Event) : Event :=
  let x := e.reliability.get a
  let n := x.phantoms + 1
  let threshold := e.image.phantomThreshold
  if threshold ≤ n then
    let x' : Reliability := { x with
      overFlag := true, fault := some { vehicle := vehicle, junction := j, time := e.clock }, phantoms := 0, secondary := 0 }
    offer (.threshold a j vehicle e.clock threshold) { e with reliability := e.reliability.set a x' }
  else { e with reliability := e.reliability.set a { x with phantoms := n } }

end Sys2Proof.Machine
end

