-- ==== Sys2Proof/Machine/Store.lean ====
section
/-!
DEFINITION. Machine/Store.lean: the bytes of records (R185, R188, R189), the CRC (R185) and the check of the stored image (R180).
-/
namespace Sys2Proof.Machine

/-! ### Bytes (R185, R189) -/

/-- A number in one byte. -/
def byte1 (n : Nat) : List Byte := [BitVec.ofNat 8 n]

/-- A number in two bytes, most significant first (R185). -/
def byte2 (n : Nat) : List Byte := [BitVec.ofNat 8 (n / 256), BitVec.ofNat 8 n]

/-- A clock value in four bytes, most significant first (R185). -/
def byte4 (c : Clock) : List Byte :=
  [c.extractLsb' 24 8, c.extractLsb' 16 8, c.extractLsb' 8 8, c.extractLsb' 0 8]

/-- A signed number in two bytes, in two's complement (R185). -/
def signed2 (x : Int) : List Byte := byte2 (BitVec.ofInt 16 x).toNat

/-- A switch, or a field whose values are yes and no (R189). -/
def switch1 (b : Bool) : List Byte := byte1 (if b then 1 else 0)

/-- A group of switches, one byte each in index order (R188). -/
def switches (l : List Bool) : List Byte := l.flatMap switch1

/-- An optional field behind its presence byte (R187). -/
def optional {α : Type} (f : α → List Byte) : Option α → List Byte
  | none => byte1 0
  | some x => byte1 1 ++ f x

/-- A list behind its count byte (R187). -/
def counted {α : Type} (f : α → List Byte) (l : List α) : List Byte := byte1 l.length ++ l.flatMap f

/-! ### The CRC (R185) -/

/-- One bit of the division: x^16 + x^12 + x^5 + 1. -/
def crcBit (c : CheckWord) : CheckWord := if c.msb then (c <<< 1) ^^^ 0x1021 else c <<< 1

/-- One byte, most significant bit first. -/
def crcByte (c : CheckWord) (b : Byte) : CheckWord :=
  crcBit (crcBit (crcBit (crcBit (crcBit (crcBit (crcBit (crcBit (c ^^^ (b.setWidth 16 <<< 8)))))))))

/-- The CRC of a string of bytes: an initial value of all ones, and no final inversion. -/
def crc (l : List Byte) : CheckWord := l.foldl crcByte 0xFFFF

/-! ### Table entries (R188: the order of each rule's field table) -/

def junctionBytes (e : JunctionEntry) : List Byte := switch1 e.present ++ byte1 e.phaseCount

def phaseBytes (e : PhaseEntry) : List Byte :=
  byte2 e.split ++ byte2 e.minGreen ++ byte2 e.clearance ++ byte2 e.maxExtension ++ switch1 e.guarded

def gateModeCode : GateMode → Nat
  | .uniform => 0
  | .split => 1

def gateBytes (g : Gate) : List Byte := byte1 (gateModeCode g.mode) ++ switch1 g.m ++ switch1 g.u ++ byte1 g.tu

def approachBytes (e : ApproachEntry) : List Byte :=
  optional (fun j => byte1 j.val) e.junction ++ byte1 e.busPhase.val ++ byte1 e.reachCount ++ byte1 e.trust ++
    optional (fun x => byte1 x.val) e.exitTarget ++ byte1 e.secondaryLimit

def dwellCode : DwellMode → Nat
  | .none => 0
  | .fixed => 1
  | .reported => 2
  | .timedThenReported => 3

def reachBytes (e : ReachEntry) : List Byte :=
  byte2 e.length ++ byte1 e.cruise ++ switch1 e.stop ++ byte1 (dwellCode e.dwellMode) ++ byte2 e.fixedDwell

def entryBytes (e : EntryEntry) : List Byte := optional (fun a => byte1 a.val) e.approach ++ byte2 e.linkTime

def routeBytes (e : RouteRange) : List Byte := byte2 e.low ++ byte2 e.high ++ byte1 e.group.val

def levelBytes (e : LevelEntry) : List Byte := byte2 e.cap ++ byte1 e.floor

def enablesBytes (e : Enables) : List Byte :=
  switches e.approach.toList ++ switches e.grantNotice.toList ++ switches e.levelNotice.toList ++ switches e.referral.toList

/-- The values of an entry, as a WRITE CONFIG carries them and a reply shows them (R188). -/
def entryValues : TableEntry → List Byte
  | .junction e => junctionBytes e
  | .phase e => phaseBytes e
  | .gate e => gateBytes e
  | .approach e => approachBytes e
  | .reach e => reachBytes e
  | .entry e => entryBytes e
  | .routeRange e => routeBytes e
  | .group c => byte1 c
  | .cls t => byte1 t
  | .level e => levelBytes e
  | .enables e => enablesBytes e
  | .parameter v => byte2 v

/-! ### The stored image (R180, R181) -/

/-- The image's entries in table order and index order (R180, R185). -/
def imageBytes (i : Image) : List Byte :=
  i.junctions.toList.flatMap junctionBytes ++ i.phases.toList.flatMap phaseBytes ++ i.gates.toList.flatMap gateBytes ++
    i.approaches.toList.flatMap approachBytes ++ i.reaches.toList.flatMap reachBytes ++ i.entries.toList.flatMap entryBytes ++
    i.routes.toList.flatMap routeBytes ++ i.groups.toList.flatMap byte1 ++ i.classes.toList.flatMap byte1 ++
    i.levels.toList.flatMap levelBytes ++ enablesBytes i.enables ++ i.parameters.toList.flatMap byte2

/-- The check word computed over an image's tables (R180). -/
def checkWord (i : Image) : CheckWord := crc (imageBytes i)

/-- The image passes its check when the word computed over its tables equals the stored word (R180). -/
def StoredImage.passes (x : StoredImage) : Bool := checkWord x.tables == x.word

end Sys2Proof.Machine
end

