-- ==== Sys2Proof/Machine/Frames.lean ====
section
/-!
DEFINITION. Machine/Frames.lean: the bytes of the frames the unit sends (R185, R188, R189): orders, hand-ons, replies and notices.
-/
namespace Sys2Proof.Machine

/-- A duration in two bytes (R185). A time to the stop line beyond two bytes has no stated form (log 13). -/
def duration2 (n : Nat) : List Byte := byte2 (if n < 65536 then n else Config.wideDuration n)

/-- A frame of a kind with a body (R185). -/
def frame (kind : Nat) (body : List Byte) : List Byte :=
  let inner := byte2 (1 + body.length) ++ byte1 kind ++ body
  byte1 0xC3 ++ inner ++ byte2 (crc inner).toNat

/-! ### Codes (R189) -/

def reportKindCode : ReportBody → Nat
  | .checkIn _ _ _ _ => 1
  | .position _ _ _ => 2
  | .stopArrive _ _ => 3
  | .stopDepart _ _ => 4
  | .passed => 5
  | .checkOut => 6

def orderKindCode : OrderKind → Nat
  | .extend => 1
  | .early => 2
  | .release => 3
  | .cancel => 4

def resultCode : Result → Nat
  | .ok => 0
  | .okDeferred => 1
  | .malformed => 2
  | .range => 3
  | .locked => 4
  | .busy => 5
  | .noReferral => 6
  | .staleRuling => 7
  | .inconsistent => 8
  | .notFound => 9

def noticeKindCode : NoticeBody → Nat
  | .start _ _ _ _ _ => 1
  | .journey _ => 2
  | .referral _ _ _ _ _ _ _ => 3
  | .fault _ _ _ => 4
  | .level _ _ _ _ _ => 5
  | .threshold _ _ _ _ _ => 6
  | .grantStart _ _ _ _ _ => 7
  | .grantEnd _ _ _ _ _ => 7
  | .commitDone _ => 8

def slotCode : SlotCode → Nat
  | .inactive => 0
  | .empty => 1
  | .full => 2
  | .overrun => 3

def trackStateCode : TrackState → Nat
  | .expected => 0
  | .approaching => 1
  | .dwelling => 2
  | .cleared => 3

def classCode (c : LateClass) : Nat := (match c with | .severe => 0 | .late => 1 | .onTime => 2 | .early => 3)

def actionCode : Action → Nat
  | .none => 0
  | .extend => 1
  | .early => 2
  | .earlyExtend => 3
  | .ride => 4

def wayCode : Way → Nat
  | .a => 0
  | .b => 1

def junctionStateCode : JunctionState → Nat
  | .idle => 0
  | .awaitRuling => 1
  | .ordering => 2
  | .inForce => 3
  | .recovery => 4
  | .frozen => 5

/-- The codes of a request's state by the order of R88's field table, its valid-value table (log 38). -/
def requestStateCode : RequestState → Nat
  | .waiting => 0
  | .held => 1
  | .granted => 2
  | .riding => 3
  | .servedByPlan => 4

def holdCode : HoldReason → Nat
  | .gate => 0
  | .floor => 1
  | .unconfirmed => 2
  | .dwelling => 3
  | .referral => 4
  | .staleMirror => 5
  | .frozen => 6
  | .recovering => 7

def verdictCode : LastVerdict → Nat
  | .servedByPlan => 0
  | .tooSmall => 1
  | .miss => 2
  | .defer => 3
  | .budget => 4
  | .limit => 5

def levelCode : Level → Nat
  | .normal => 0
  | .lo => 1
  | .mid => 2
  | .hi => 3

def grantKindCode : GrantKind → Nat
  | .extend => 0
  | .early => 1

def endingCode : Ending → Nat
  | .passed => 0
  | .lost => 1
  | .withdrawn => 2
  | .expired => 3
  | .served => 4
  | .preempted => 5
  | .fault => 6

def faultKindCode : FaultKind → Nat
  | .refused => 0
  | .noAck => 1
  | .badAck => 2

def conditionCode : StoreCondition → Nat
  | .sound => 0
  | .writing => 1
  | .damaged => 2

def causeCode : StartCause → Nat
  | .cold => 0
  | .warm => 1

def intervalCode : Interval → Nat
  | .green => 0
  | .clearance => 1

/-- The first value of a pair of results, PASSED or OK, takes 0 (R189). -/
def outcomeByte (ok : Bool) : List Byte := byte1 (if ok then 0 else 1)

/-! ### Records out (R188) -/

/-- What follows the order kind (R188). -/
def orderContents : Order → List Byte
  | .extend p total => byte1 p.val ++ byte2 total
  | .early p cuts => byte1 p.val ++ counted (fun c => byte1 c.1.val ++ byte2 c.2) cuts
  | .release p => byte1 p.val
  | .cancel => []

def orderBytes (o : Order) : List Byte := byte1 (orderKindCode (orderKind o)) ++ orderContents o

/-- The body of an ORDER record. -/
def sentOrderBody (o : SentOrder) : List Byte := byte1 o.junction.val ++ byte1 o.tag.toNat ++ orderBytes o.order

/-- The body of a HAND-ON record. -/
def handOnBody (h : OutHandOn) : List Byte := byte2 h.vehicle ++ byte2 h.route ++ signed2 h.deviation ++ byte1 h.entry.val

/-- What a radio report carries after its vehicle and approach (R188). -/
def reportFields : ReportBody → List Byte
  | .checkIn route D s dev => byte2 route ++ byte2 D ++ byte1 s ++ optional signed2 dev
  | .position D s dev => byte2 D ++ byte1 s ++ optional signed2 dev
  | .stopArrive k dev => byte1 k ++ optional signed2 dev
  | .stopDepart k dev => byte1 k ++ optional signed2 dev
  | .passed => []
  | .checkOut => []

/-- A report shown with its kind and stamp (R35, R151). DEDUCED: its fields follow the radio layout of R188, in which a stop report's stop index stands
before its deviation, and not the order of R24's table (log 61). -/
def reportBytes (r : Report) : List Byte :=
  byte1 (reportKindCode r.body) ++ byte2 r.vehicle ++ byte1 r.approach.val ++ reportFields r.body ++ byte4 r.stamp

/-! ### Parts of replies and notices -/

def slotBytes (x : Slot) : List Byte :=
  byte1 (slotCode x.code) ++ switches x.approachSwitches.toList ++ switches x.kindSwitches.toList ++ switch1 x.overrunFlag ++
    optional reportBytes x.report

/-- A pending journey record in its track, by the plan of R188 (log 38). -/
def journeyFields (j : Journey) : List Byte :=
  byte2 j.vehicle ++ byte2 j.route ++ byte1 j.junction.val ++ byte1 j.approach.val ++ optional byte4 j.firstListed ++
    optional byte4 j.firstEta ++ byte4 j.lastEta ++ byte4 j.passTime ++ byte1 (actionCode j.action) ++ byte2 j.borrowed ++
    byte1 (classCode j.cls)

/-- The JOURNEY notice's fields, by its own layout (R188): one presence byte for the first listed time and the first ETA. -/
def journeyNotice (j : Journey) : List Byte :=
  let first := match j.firstListed, j.firstEta with
    | some t, some eta => byte1 1 ++ byte4 t ++ byte4 eta
    | _, _ => byte1 0
  byte2 j.vehicle ++ byte2 j.route ++ byte1 j.junction.val ++ byte1 j.approach.val ++ first ++ byte4 j.lastEta ++
    byte4 j.passTime ++ byte1 (actionCode j.action) ++ byte2 j.borrowed ++ byte1 (classCode j.cls)

/-- Every field of a track, in the order of R42. -/
def trackBytes (t : Track) : List Byte :=
  switch1 true ++ byte2 t.vehicle ++ byte2 t.route ++ byte1 t.group.val ++ byte1 (trackStateCode t.state) ++
    optional (fun a => byte1 a.val) t.approach ++ byte1 t.reach.val ++ byte2 t.distance ++ byte1 t.speed ++
    byte4 t.reportTime ++ optional byte4 t.lastSeen ++ optional signed2 t.deviation ++ optional byte4 t.stopArrive ++
    optional byte1 t.dwellStop ++ optional byte1 t.lastDeparted ++ optional byte4 t.eta ++ byte2 t.nominal ++
    signed2 t.lateness ++ byte1 (classCode t.cls) ++ byte1 t.tier ++ switch1 t.pinned ++
    optional (fun j => byte1 j.val) t.listed ++ optional byte4 t.firstListed ++ optional byte4 t.firstEta ++
    optional byte4 t.lastEta ++ byte1 (actionCode t.action) ++ byte2 t.borrowed ++ optional journeyFields t.journey ++
    optional byte4 t.expectDeadline ++ switch1 t.referralOpen ++ byte1 t.superseded

/-- A way of a set: invalid, or its fields (R67). -/
def wayBytes : Option Track → List Byte
  | none => switch1 false
  | some t => trackBytes t

def placeByte : AnomalyPlace → List Byte
  | .approach a => byte1 a.val
  | .junction j => byte1 j.val

/-- The figures of an anomaly, in the order of R147. -/
def figuresBytes (place : AnomalyPlace) : Figures → List Byte
  | .distance d length => byte2 d ++ byte2 length
  | .reversal d previous tolerance => byte2 d ++ byte2 previous ++ byte2 tolerance
  | .horizon delta h => duration2 delta ++ byte2 h
  | .dwell k arrived cap => byte1 k ++ byte4 arrived ++ byte2 cap
  | .conflict w o =>
    placeByte place ++ byte2 w.vehicle ++ byte2 o.vehicle ++ byte1 w.tier ++ byte1 o.tier ++ byte1 w.busPhase.val ++
      byte1 o.busPhase.val ++ byte4 w.eta ++ byte4 o.eta
  | .unplaced route => byte2 route

def classByte (c : AnomalyClass) : List Byte := byte1 (anomalyIndex c).val

def causeBytes (c : LastCause) : List Byte := classByte c.cls ++ byte2 c.vehicle ++ placeByte c.place ++ byte4 c.time

/-- The open referral, in the order of R151; its held report's own fields as in `reportBytes` (log 61). -/
def referralBytes (r : ReferralView) : List Byte :=
  classByte r.cls ++ byte2 r.vehicle ++ placeByte r.place ++ optional reportBytes r.report ++ optional byte2 r.other ++
    figuresBytes r.place r.figures ++ byte4 r.opening ++ byte4 r.deadline ++ byte1 r.superseded

def faultBytes (f : FaultFlags) : List Byte := switches [f.refused, f.noAck, f.badAck]

def riseBytes (f : RiseFlags) : List Byte := switches [f.lo, f.mid, f.hi]

/-- An approach's tag: the values of R161 in their order, tagged 0 and untagged 1 (R189). -/
def tagByte (tagged : Bool) : List Byte := byte1 (if tagged then 0 else 1)

def reliabilityBytes (r : Reliability) : List Byte :=
  byte1 r.phantoms ++ byte1 r.secondary ++ switch1 r.overFlag ++
    optional (fun f : FaultRecord => byte2 f.vehicle ++ byte1 f.junction.val ++ byte4 f.time) r.fault ++ tagByte r.tagged

/-- The unit-wide view, in the order of R174. The store condition stands between the start status and the lock (log 38).
DESIGN CHOICE: the hold marker and the referral slot, which no rule marks as optional fields, stand behind a presence byte each (log 60). -/
def statusBytes (v : StatusView) : List Byte :=
  byte4 v.clock ++ switch1 v.overflow ++ byte1 v.queued ++ byte2 v.nextNumber.toNat ++
    v.slots.toList.flatMap (fun x => byte1 (slotCode x.1) ++ switch1 x.2) ++ optional (fun k => byte1 k.val) v.hold ++
    v.junctions.toList.flatMap (fun x =>
      byte1 (junctionStateCode x.state) ++ faultBytes x.faults ++ byte1 (levelCode x.level) ++ riseBytes x.rises) ++
    switches v.anomalyFlags.toList ++ optional causeBytes v.lastCause ++ optional referralBytes v.referral ++
    v.reliability.toList.flatMap reliabilityBytes ++ byte4 v.leakDeadline ++ outcomeByte v.startPassed ++
    byte1 (conditionCode v.condition) ++ switch1 v.lock ++ byte1 (if v.committing then 1 else 0) ++
    optional outcomeByte v.lastCommit

/-- The grant record, in the order of R120. -/
def grantBytes (g : Grant) : List Byte :=
  optional (fun h : TrackRef => byte2 h.vehicle ++ byte1 (wayCode h.way)) g.holder ++ byte1 g.busPhase.val ++
    byte1 (grantKindCode g.kind) ++ byte4 g.windowStart ++ byte4 g.bound ++ optional byte4 g.plannedEnd ++
    byte2 g.extensionInForce ++ byte2 g.cut ++ byte2 g.cutCharged ++ byte2 g.extensionCharged ++ byte2 g.chargeWindow.toNat ++
    switch1 g.closing ++ optional byte2 g.target ++ optional byte2 g.candidate ++ optional (fun x => byte1 (endingCode x)) g.ending

/-- The status that a Plan Mirror holds, in the order of R109; its stale byte is sent after it, also where there is none (log 60). -/
def mirrorBytes (m : Mirror) : List Byte :=
  byte1 m.phase.val ++ byte1 (intervalCode m.interval) ++ byte2 m.elapsed ++ byte2 m.remaining ++ byte4 m.receipt

/-- One junction's view, in the order of R174, R108 and R146. DESIGN CHOICE: the status of the mirror, the conflict vehicles, the abandoned tag and the last
detector call, which can be missing and which no rule marks as optional fields, stand behind a presence byte each (log 60). -/
def junctionViewBytes (v : JunctionView) : List Byte :=
  switch1 v.present ++ byte1 (junctionStateCode v.state) ++ faultBytes v.faults ++
    optional (fun t : Tag => byte1 t.toNat) v.abandoned ++ counted (fun t : Tag => byte1 t.toNat) v.discard ++
    byte1 v.tagCounter.toNat ++
    optional (fun o : Order × Tag × Clock =>
      byte1 (orderKindCode (orderKind o.1)) ++ byte1 o.2.1.toNat ++ orderContents o.1 ++ byte4 o.2.2) v.outstanding ++
    optional orderBytes v.pendingOrder ++ optional grantBytes v.grant ++ byte2 v.sequenceBorrowed ++
    optional byte4 v.recoveryDeadline ++ optional mirrorBytes v.mirror ++ switch1 v.stale ++
    optional (fun c : DetectorRecord => byte1 c.approach ++ byte1 c.presence ++ byte4 c.receipt) v.lastCall ++
    gateBytes v.gate ++ optional gateBytes v.saved ++ optional (fun c : Carry => optional byte2 c.preferred) v.carry ++
    optional (fun c : Nat × Nat => byte2 c.1 ++ byte2 c.2) v.conflict ++ byte1 v.average ++ byte1 (levelCode v.level) ++
    byte2 v.sum ++ byte2 v.count ++ riseBytes v.rises ++ byte2 v.used ++ byte2 v.windowNumber.toNat ++ byte4 v.windowDeadline ++
    byte2 v.cap ++ byte1 v.floor ++ byte2 v.budgetLeft

/-- A Request List entry, in the order of R88. -/
def requestBytes (x : Entry) : List Byte :=
  byte2 x.vehicle ++ byte1 (wayCode x.way) ++ byte1 x.approach.val ++ byte1 x.busPhase.val ++ byte1 x.tier ++
    byte1 (classCode x.cls) ++ byte4 x.eta ++ switch1 x.suspended ++ byte4 x.firstListed ++ switch1 x.confirmed ++
    switch1 x.referred ++ byte1 (requestStateCode x.state) ++ optional (fun h => byte1 (holdCode h)) x.hold ++
    optional (fun v => byte1 (verdictCode v)) x.verdict

def flagBytes (v : FlagView) : List Byte :=
  switches v.overruns.toList ++ v.rises.toList.flatMap riseBytes ++ switches v.anomalies.toList ++ switches v.overs.toList ++
    switch1 v.overflow

/-! ### Frames out (R188) -/

/-- The body of a reply by its owning rule (R188). -/
def replyBodyBytes : ReplyBody → List Byte
  | .empty => []
  | .status v => statusBytes v
  | .track t => trackBytes t
  | .set a b age => wayBytes a ++ wayBytes b ++ byte1 (wayCode age)
  | .junction v => junctionViewBytes v
  | .list l => counted requestBytes l
  | .slot x => slotBytes x
  | .slotConfig code as ks flag =>
    byte1 (slotCode code) ++ switches as.toList ++ switches ks.toList ++ ((flag.map switch1).getD [])
  | .entry e => entryValues e
  | .thresholds lo mid hi => byte2 lo ++ byte2 mid ++ byte2 hi
  | .gate live saved => gateBytes live ++ optional gateBytes saved
  | .enables e => enablesBytes e
  | .flags v => flagBytes v
  | .faults f => faultBytes f
  | .ruling cls vehicle ruling value => byte1 cls ++ byte2 vehicle ++ byte1 ruling ++ optional byte2 value
  | .tag t => tagByte t
  | .junctionState s => byte1 (junctionStateCode s)
  | .lock b => switch1 b

/-- The fields of a notice (R177, R188). The kind of a GRANT start notice is the grant's (log 38). -/
def noticeFields : NoticeBody → List Byte
  | .start cause passed condition lock last =>
    byte1 (causeCode cause) ++ outcomeByte passed ++ byte1 (conditionCode condition) ++ switch1 lock ++ optional outcomeByte last
  | .journey j => journeyNotice j
  | .referral cls vehicle place opening figures other route =>
    classByte cls ++ byte2 vehicle ++ placeByte place ++ byte4 opening ++ figuresBytes place figures ++
      ((other.map byte2).getD []) ++ ((route.map byte2).getD [])
  | .fault j kind tag => byte1 j.val ++ byte1 (faultKindCode kind) ++ byte1 tag.toNat
  | .level j new old average time =>
    byte1 j.val ++ byte1 (levelCode new) ++ byte1 (levelCode old) ++ byte1 average ++ byte4 time
  | .threshold a j vehicle time threshold => byte1 a.val ++ byte1 j.val ++ byte2 vehicle ++ byte4 time ++ byte2 threshold
  | .grantStart j holder p kind amount =>
    byte1 j.val ++ byte2 holder ++ byte1 p.val ++ byte1 (grantKindCode kind) ++ byte2 amount
  | .grantEnd j holder p ending borrowed =>
    byte1 j.val ++ byte2 holder ++ byte1 p.val ++ byte1 (endingCode ending) ++ byte2 borrowed
  | .commitDone ok => outcomeByte ok

/-- The frame of a reply, a BUSY answer or a notice, on the supervisor port. -/
def supervisorBytes : SupervisorFrame → List Byte
  | .reply r =>
    frame 0x40 (byte1 r.kind.toNat ++ byte1 r.number.toNat ++ byte1 (resultCode r.result) ++
      (if r.result = .ok ∨ r.result = .okDeferred then replyBodyBytes r.body else []))
  | .busy b => frame 0x40 (byte1 b.kind.toNat ++ byte1 b.number.toNat ++ byte1 (resultCode .busy))
  | .notice n => frame 0x41 (byte1 (noticeKindCode n.body) ++ byte2 n.number.toNat ++ noticeFields n.body)

/-- The frame of an order, on the signal port. -/
def orderFrame (o : SentOrder) : List Byte := frame 0x25 (sentOrderBody o)

/-- The frame of a hand-on, on the corridor port. -/
def handOnFrame (h : OutHandOn) : List Byte := frame 0x30 (handOnBody h)

/-- What the supervisor port's transmitter is sending. -/
def State.supervisorOutput (s : State) : List Byte := (s.supervisorFrame.map supervisorBytes).getD []

/-- What the signal port's transmitter is sending. -/
def State.signalOutput (s : State) : List Byte := (s.signalFrame.map orderFrame).getD []

/-- What the corridor port's transmitter is sending. -/
def State.corridorOutput (s : State) : List Byte := (s.corridorFrame.map handOnFrame).getD []

end Sys2Proof.Machine
end

