-- ==== Sys2Proof/WellFormed.lean ====
section
/-!
DEFINITION. WellFormed.lean: which commands a port can carry: every field within the bytes its layout gives it (R24, R188), and every
optional field in its one form. Values outside the valid values of a rule are well formed: the rules say what the unit does with them.
-/
namespace Sys2Proof

/-- A number of one byte. -/
def fits1 (n : Nat) : Bool := decide (n < 256)

/-- A number of two bytes. -/
def fits2 (n : Nat) : Bool := decide (n < 65536)

/-- A signed number of two bytes. -/
def fitsSigned (x : Int) : Bool := decide (-32768 ≤ x) && decide (x ≤ 32767)

/-- A list whose length a count byte can carry, of numbers of one byte; no other limit on the count is stated (DESIGN CHOICE, log 59). -/
def fitsList (l : List Nat) : Bool := fits1 l.length && l.all fits1

/-- A group of `n` switches, one byte each. -/
def fitsGroup (n : Nat) (l : List Nat) : Bool := l.length == n && l.all fits1

def fitsDeviation (d : Option Int) : Bool := (d.map fitsSigned).getD true

/-- R24. -/
def ReportBody.wf : ReportBody → Bool
  | .checkIn route D s dev => fits2 route && fits2 D && fits1 s && fitsDeviation dev
  | .position D s dev => fits2 D && fits1 s && fitsDeviation dev
  | .stopArrive k dev => fits1 k && fitsDeviation dev
  | .stopDepart k dev => fits1 k && fitsDeviation dev
  | .passed => true
  | .checkOut => true

/-- The bytes of an abandoned frame: no more than a frame has behind its marker, none of which arrived before one that stands in front of it (R185, R186). -/
def fitsHeard (l : List HeardByte) : Bool := decide (l.length ≤ 1028) && decide (l.Pairwise fun x y => y.age ≤ x.age)

/-- R186. -/
def AbandonReason.wf : AbandonReason → Bool
  | .length l => fitsHeard l
  | .checkWord l => fitsHeard l
  | .kind => true
  | .body => true

/-- R24, R25: an unknown kind is none of the six. -/
def RadioFrame.wf : RadioFrame → Bool
  | .unfit l => fitsHeard l
  | .misfit => true
  | .unknownKind code => decide (code.toNat = 0) || decide (6 < code.toNat)
  | .report vehicle approach body => fits2 vehicle && fits1 approach && body.wf

/-- R63, R188. -/
def HandOnFrame.wf (h : HandOnFrame) : Bool := fits2 h.vehicle && fits2 h.route && fitsSigned h.deviation && fits1 h.entry

/-- R109, R188. -/
def PhaseStatusFrame.wf (r : PhaseStatusFrame) : Bool :=
  fits1 r.junction && fits1 r.phase && fits2 r.elapsed && fits2 r.remaining

/-- An optional field carries a value exactly when its presence byte is 1 (R187). -/
def OptionalField.wf (f : OptionalField) : Bool := fits1 f.presence && fits1 f.value && (f.presence == 1 || f.value == 0)

/-- The fields of a written entry within their bytes (R188). -/
def WrittenEntry.wf : WrittenEntry → Bool
  | .junction present count => fits1 present && fits1 count
  | .phase split minGreen clearance maxExtension guarded =>
    fits2 split && fits2 minGreen && fits2 clearance && fits2 maxExtension && fits1 guarded
  | .gate mode m u tu => fits1 mode && fits1 m && fits1 u && fits1 tu
  | .approach j p n w x limit => j.wf && fits1 p && fits1 n && fits1 w && x.wf && fits1 limit
  | .reach length cruise stop mode dwell => fits2 length && fits1 cruise && fits1 stop && fits1 mode && fits2 dwell
  | .entry a link => a.wf && fits2 link
  | .routeRange low high g => fits2 low && fits2 high && fits1 g
  | .group c => fits1 c
  | .cls t => fits1 t
  | .level cap floor => fits2 cap && fits1 floor
  | .enables a g l r => fitsGroup 16 a && fitsGroup 4 g && fitsGroup 3 l && fitsGroup 5 r
  | .parameter v => fits2 v

def ConfigWrite.wf (w : ConfigWrite) : Bool := fits1 w.index && w.values.wf

def SlotWrite.wf (w : SlotWrite) : Bool := fits1 w.index && fits1 w.code && fitsGroup 16 w.approachSwitches && fitsGroup 6 w.kindSwitches

def GateSetting.wf (g : GateSetting) : Bool := fits1 g.junction && fits1 g.mode && fits1 g.m && fits1 g.u && fits1 g.tu

/-- SET ENABLES: a frame of at most 1024 bytes carries at most 1021 switches (R185). -/
def EnablesSetting.wf (x : EnablesSetting) : Bool := fits1 x.group && decide (x.switches.length ≤ 1021) && x.switches.all fits1

def FlagSets.wf (x : FlagSets) : Bool :=
  fitsList x.slots && fits1 x.rises.length && (x.rises.all fun r => fits1 r.1 && fits1 r.2) && fitsList x.classes &&
    fitsList x.approaches && fits1 x.overflow &&
    decide (x.slots.length + 2 * x.rises.length + x.classes.length + x.approaches.length ≤ 1017)

def FaultClear.wf (x : FaultClear) : Bool := fits1 x.junction && fitsList x.kinds

def Ruling.wf (x : Ruling) : Bool := fits1 x.cls && fits2 x.vehicle && fits1 x.ruling && (x.value.map fits2).getD true

/-- A request whose body, where it fits its kind, is well formed. -/
def Request.wf {α : Type} (f : α → Bool) (r : Request α) : Bool := (r.body.map f).getD true

/-- The twenty request kinds (R189). -/
def knownKind (k : Byte) : Bool := decide (1 ≤ k.toNat) && decide (k.toNat ≤ 20)

/-- The commands that a port, a deadline or the store can bring. -/
def Instr.wf : Instr → Bool
  | .coldStart => true
  | .radioReport f => f.wf
  | .frameTimeout f => fitsHeard f.bytes
  | .takeReport => true
  | .takeHandOn => true
  | .handOnArrival h => h.wf
  | .stallLimit => true
  | .phaseStatus r => r.wf
  | .mirrorStale _ => true
  | .occupancy j percent => fits1 j && fits1 percent
  | .detectorCall j a presence => fits1 j && fits1 a && fits1 presence
  | .ack j _ _ => fits1 j
  | .ackTimeout _ => true
  | .recoveryDeadline _ => true
  | .windowDeadline _ => true
  | .averagingDeadline => true
  | .leakDeadline => true
  | .staleDeadline _ _ => true
  | .expectDeadline _ _ => true
  | .dwellDeadline _ _ => true
  | .referralDeadline => true
  | .readStatus _ => true
  | .unknownRequest kind _ => !knownKind kind
  | .readTrack r => r.wf fits2
  | .readSet r => r.wf fits1
  | .readJunction r => r.wf fits1
  | .readList r => r.wf fits1
  | .holdSlot r => r.wf fits1
  | .releaseSlot _ => true
  | .readConfig r => r.wf fun x => fits1 x.index
  | .readConfigSlot r => r.wf fits1
  | .writeConfig r => r.wf (·.wf)
  | .writeConfigSlot r => r.wf (·.wf)
  | .setGate r => r.wf (·.wf)
  | .setEnables r => r.wf (·.wf)
  | .clearFlags r => r.wf (·.wf)
  | .clearFault r => r.wf (·.wf)
  | .rule r => r.wf (·.wf)
  | .tag r => r.wf fits1
  | .untag r => r.wf fits1
  | .clearJunction r => r.wf fits1
  | .restart _ => true
  | .commitConfig _ => true
  | .lockConfig _ => true
  | .storeWriteComplete _ => true
  | .supervisorFrameComplete => true
  | .portFrameComplete _ => true
  | .corridorClockTick => true
  | .markerByte _ => true
  | .abandonedFrame _ why => why.wf

end Sys2Proof
end

