-- ==== Sys2Proof/Decode.lean ====
section
/-!
DEFINITION. Decode.lean: the words of the opcode table (its rows give no bits, so no word spells a command), and the frames of the four ports
read as commands and written from them (R185–R189).
-/
namespace Sys2Proof

/-- The command a word of the opcode table spells: no row of the table gives bits, so none. -/
def decodeTableWord (_nbits _w : Nat) : Option Instr := none

namespace Machine

/-! ### Reading (R185, R187, R188) -/

/-- Two bytes, most significant first. -/
def num2 (h l : Byte) : Nat := h.toNat * 256 + l.toNat

/-- Two bytes as a signed number in two's complement. -/
def sig2 (h l : Byte) : Int := (BitVec.ofNat 16 (num2 h l)).toInt

/-- The deviation that ends a report, behind its presence byte; none where the bytes do not fit. -/
def readDeviation : List Byte → Option (Option Int)
  | [0] => some none
  | [1, h, l] => some (some (sig2 h l))
  | _ => none

/-- The fields of a radio report after its vehicle and approach, by its kind (R188). -/
def readReport : Nat → List Byte → Option ReportBody
  | 1, r1 :: r0 :: d1 :: d0 :: s :: rest => (readDeviation rest).map (.checkIn (num2 r1 r0) (num2 d1 d0) s.toNat)
  | 2, d1 :: d0 :: s :: rest => (readDeviation rest).map (.position (num2 d1 d0) s.toNat)
  | 3, k :: rest => (readDeviation rest).map (.stopArrive k.toNat)
  | 4, k :: rest => (readDeviation rest).map (.stopDepart k.toNat)
  | 5, [] => some .passed
  | 6, [] => some .checkOut
  | _, _ => none

/-- A frame of the radio port. -/
def readRadio (kind : Byte) (body : List Byte) : Instr :=
  if 1 ≤ kind.toNat ∧ kind.toNat ≤ 6 then
    match body with
    | v1 :: v0 :: a :: rest =>
      match readReport kind.toNat rest with
      | some b => .radioReport (.report (num2 v1 v0) a.toNat b)
      | none => .radioReport .misfit
    | _ => .radioReport .misfit
  else .radioReport (.unknownKind kind)

/-- A frame of the signal port. -/
def readSignal (kind : Byte) (body : List Byte) : Instr :=
  match kind.toNat, body with
  | 0x21, [j, p, i, e1, e0, r1, r0] =>
    let make (x : Interval) : Instr :=
      .phaseStatus { junction := j.toNat, phase := p.toNat, interval := x, elapsed := num2 e1 e0, remaining := num2 r1 r0 }
    if i = 0 then make .green else if i = 1 then make .clearance else .abandonedFrame .signal .body
  | 0x22, [j, percent] => .occupancy j.toNat percent.toNat
  | 0x23, [j, a, p] => .detectorCall j.toNat a.toNat p.toNat
  | 0x24, [j, t, r] =>
    if r = 0 then .ack j.toNat t true else if r = 1 then .ack j.toNat t false else .abandonedFrame .signal .body
  | 0x21, _ => .abandonedFrame .signal .body
  | 0x22, _ => .abandonedFrame .signal .body
  | 0x23, _ => .abandonedFrame .signal .body
  | 0x24, _ => .abandonedFrame .signal .body
  | _, _ => .abandonedFrame .signal .kind

/-- A frame of the corridor port. -/
def readCorridor (kind : Byte) (body : List Byte) : Instr :=
  match kind.toNat, body with
  | 0x30, [v1, v0, r1, r0, d1, d0, e] =>
    .handOnArrival { vehicle := num2 v1 v0, route := num2 r1 r0, deviation := sig2 d1 d0, entry := e.toNat }
  | 0x30, _ => .abandonedFrame .corridor .body
  | _, _ => .abandonedFrame .corridor .kind

/-! ### Bodies of supervisor requests (R169, R188) -/

def readNone : List Byte → Option Unit
  | [] => some ()
  | _ => none

def readOne : List Byte → Option Nat
  | [x] => some x.toNat
  | _ => none

def readTwo : List Byte → Option Nat
  | [h, l] => some (num2 h l)
  | _ => none

/-- The numbers of `n` bytes and what follows them. -/
def takeNumbers (n : Nat) (l : List Byte) : Option (List Nat × List Byte) :=
  if n ≤ l.length then some ((l.take n).map (·.toNat), l.drop n) else none

/-- A list of one-byte numbers behind its count byte, and what follows it (R187). DESIGN CHOICE: no layout limits the count of a list of CLEAR FLAGS or
CLEAR FAULT, so every count whose entries stand in the body is taken, repeats and more entries than there are flags among them (log 59). -/
def takeList : List Byte → Option (List Nat × List Byte)
  | [] => none
  | n :: rest => takeNumbers n.toNat rest

/-- Numbers in pairs. -/
def pairUp : List Nat → List (Nat × Nat)
  | x :: y :: rest => (x, y) :: pairUp rest
  | _ => []

/-- A list of pairs behind its count byte, which no layout limits either (DESIGN CHOICE, log 59). -/
def takePairs : List Byte → Option (List (Nat × Nat) × List Byte)
  | [] => none
  | n :: rest => (takeNumbers (2 * n.toNat) rest).map fun x => (pairUp x.1, x.2)

/-- An optional one-byte field of a table entry (R187): a presence byte that is neither is kept for SP, which refuses it (R169 step 3). -/
def takeOptional : List Byte → Option (OptionalField × List Byte)
  | [] => none
  | p :: rest =>
    if p = 1 then
      match rest with
      | [] => none
      | v :: more => some ({ presence := 1, value := v.toNat }, more)
    else some ({ presence := p.toNat, value := 0 }, rest)

def tableOf : Nat → Option TableName
  | 1 => some .junction
  | 2 => some .phase
  | 3 => some .gate
  | 4 => some .approach
  | 5 => some .reach
  | 6 => some .entry
  | 7 => some .routeRange
  | 8 => some .group
  | 9 => some .cls
  | 10 => some .level
  | 11 => some .enables
  | 12 => some .parameter
  | _ => none

def readApproachEntry (l : List Byte) : Option WrittenEntry := do
  let (j, l1) ← takeOptional l
  match l1 with
  | p :: n :: w :: l2 =>
    let (x, l3) ← takeOptional l2
    let limit ← readOne l3
    return .approach j p.toNat n.toNat w.toNat x limit
  | _ => none

def readEntryEntry (l : List Byte) : Option WrittenEntry := do
  let (a, l1) ← takeOptional l
  let link ← readTwo l1
  return .entry a link

def readEnablesEntry (l : List Byte) : Option WrittenEntry := do
  let (a, l1) ← takeNumbers 16 l
  let (g, l2) ← takeNumbers 4 l1
  let (v, l3) ← takeNumbers 3 l2
  let (r, l4) ← takeNumbers 5 l3
  let _ ← readNone l4
  return .enables a g v r

/-- The values of an entry of a table (R188). -/
def readValues : TableName → List Byte → Option WrittenEntry
  | .junction, [p, n] => some (.junction p.toNat n.toNat)
  | .phase, [s1, s0, n1, n0, k1, k0, x1, x0, g] =>
    some (.phase (num2 s1 s0) (num2 n1 n0) (num2 k1 k0) (num2 x1 x0) g.toNat)
  | .gate, [mode, m, u, tu] => some (.gate mode.toNat m.toNat u.toNat tu.toNat)
  | .approach, l => readApproachEntry l
  | .reach, [l1, l0, v, s, m, f1, f0] => some (.reach (num2 l1 l0) v.toNat s.toNat m.toNat (num2 f1 f0))
  | .entry, l => readEntryEntry l
  | .routeRange, [l1, l0, h1, h0, g] => some (.routeRange (num2 l1 l0) (num2 h1 h0) g.toNat)
  | .group, [c] => some (.group c.toNat)
  | .cls, [t] => some (.cls t.toNat)
  | .level, [c1, c0, f] => some (.level (num2 c1 c0) f.toNat)
  | .enables, l => readEnablesEntry l
  | .parameter, [v1, v0] => some (.parameter (num2 v1 v0))
  | _, _ => none

def readSlotValues (index : Nat) (l : List Byte) : Option SlotWrite := do
  let (c, l1) ← takeNumbers 1 l
  let (a, l2) ← takeNumbers 16 l1
  let (k, l3) ← takeNumbers 6 l2
  let _ ← readNone l3
  return { index := index, code := c.headD 0, approachSwitches := a, kindSwitches := k }

def readGateSetting : List Byte → Option GateSetting
  | [j, mode, m, u, tu] => some { junction := j.toNat, mode := mode.toNat, m := m.toNat, u := u.toNat, tu := tu.toNat }
  | _ => none

def readEnablesSetting : List Byte → Option EnablesSetting
  | [] => none
  | g :: rest => some { group := g.toNat, switches := rest.map (·.toNat) }

/-- CLEAR FLAGS (R173): its four lists may be empty, and of any count (log 59). -/
def readFlagSets (l : List Byte) : Option FlagSets := do
  let (slots, l1) ← takeList l
  let (rises, l2) ← takePairs l1
  let (classes, l3) ← takeList l2
  let (approaches, l4) ← takeList l3
  let overflow ← readOne l4
  return { slots := slots, rises := rises, classes := classes, approaches := approaches, overflow := overflow }

/-- CLEAR FAULT (R133): the list of fault kinds, of any count (log 59). -/
def readFaultClear : List Byte → Option FaultClear
  | [] => none
  | j :: rest => do
    let (kinds, l1) ← takeList rest
    let _ ← readNone l1
    return { junction := j.toNat, kinds := kinds }

/-- RULE: the optional value takes two bytes whatever the class (log 38); one whose presence byte is neither does not fit (R169 step 3). -/
def readRuling : List Byte → Option Ruling
  | [c, v1, v0, r, 0] => some { cls := c.toNat, vehicle := num2 v1 v0, ruling := r.toNat, value := none }
  | [c, v1, v0, r, 1, x1, x0] => some { cls := c.toNat, vehicle := num2 v1 v0, ruling := r.toNat, value := some (num2 x1 x0) }
  | _ => none

/-- READ CONFIG, of a table of the image or of the SLOT table (R23, R39). -/
def readReadConfig (number : Byte) : List Byte → Instr
  | [t, i] =>
    if t = 13 then .readConfigSlot { number := number, body := some i.toNat }
    else .readConfig { number := number, body := (tableOf t.toNat).map fun x => { table := x, index := i.toNat } }
  | _ => .readConfig { number := number, body := none }

/-- WRITE CONFIG, to a table of the image or to the SLOT table (R19, R37). -/
def readWriteConfig (number : Byte) : List Byte → Instr
  | t :: i :: l =>
    if t = 13 then .writeConfigSlot { number := number, body := readSlotValues i.toNat l }
    else
      .writeConfig { number := number, body := do
        let x ← tableOf t.toNat
        let v ← readValues x l
        return { index := i.toNat, values := v } }
  | _ => .writeConfig { number := number, body := none }

/-- A request by its kind (R169, R189). -/
def readRequest (kind number : Byte) (l : List Byte) : Instr :=
  match kind.toNat with
  | 0x01 => .readStatus { number := number, body := readNone l }
  | 0x02 => .readTrack { number := number, body := readTwo l }
  | 0x03 => .readSet { number := number, body := readOne l }
  | 0x04 => .readJunction { number := number, body := readOne l }
  | 0x05 => .readList { number := number, body := readOne l }
  | 0x06 => .holdSlot { number := number, body := readOne l }
  | 0x07 => .releaseSlot { number := number, body := readNone l }
  | 0x08 => readReadConfig number l
  | 0x09 => readWriteConfig number l
  | 0x0A => .setGate { number := number, body := readGateSetting l }
  | 0x0B => .setEnables { number := number, body := readEnablesSetting l }
  | 0x0C => .clearFlags { number := number, body := readFlagSets l }
  | 0x0D => .clearFault { number := number, body := readFaultClear l }
  | 0x0E => .rule { number := number, body := readRuling l }
  | 0x0F => .tag { number := number, body := readOne l }
  | 0x10 => .untag { number := number, body := readOne l }
  | 0x11 => .clearJunction { number := number, body := readOne l }
  | 0x12 => .restart { number := number, body := readNone l }
  | 0x13 => .commitConfig { number := number, body := readNone l }
  | 0x14 => .lockConfig { number := number, body := readNone l }
  | _ => .unknownRequest kind number

/-- A request that carries no request number: its body does not fit its kind (log 9). -/
def misfitRequest (kind number : Byte) : Instr :=
  match kind.toNat with
  | 0x01 => .readStatus { number := number, body := none }
  | 0x07 => .releaseSlot { number := number, body := none }
  | 0x12 => .restart { number := number, body := none }
  | 0x13 => .commitConfig { number := number, body := none }
  | 0x14 => .lockConfig { number := number, body := none }
  | _ => readRequest kind number []

/-- A frame of the supervisor port. -/
def readSupervisor (kind : Byte) : List Byte → Instr
  | [] => misfitRequest kind (Config.missingRequestNumber kind)
  | number :: rest => readRequest kind number rest

/-- What a frame whose check word matches is handed on as (R187). -/
def handOnFrameContent (p : Port) (kind : Byte) (body : List Byte) : Instr :=
  match p with
  | .supervisor => readSupervisor kind body
  | .radio => readRadio kind body
  | .signal => readSignal kind body
  | .corridor => readCorridor kind body

/-- What stands behind a marker (R186): a frame not yet complete, one that is abandoned for its length or its check word, or a whole one, with the number of
its bytes up to the last check byte. -/
inductive Behind where
  | incomplete
  | unfit
  | whole (size : Nat) (kind : Byte) (body : List Byte)
  deriving DecidableEq, Repr, Inhabited

def behindMarker : List Byte → Behind
  | l1 :: l0 :: rest =>
    let n := num2 l1 l0
    if n = 0 ∨ 1024 < n then .unfit
    else
      match rest.take n, rest.drop n with
      | kind :: body, c1 :: c0 :: _ =>
        if crc (l1 :: l0 :: kind :: body) = BitVec.ofNat 16 (num2 c1 c0) then .whole (n + 4) kind body else .unfit
      | _, _ => .incomplete
  | _ => .incomplete

/-- How many ds before an abandonment the last of some bytes arrived. -/
def lastAge (l : List HeardByte) : Nat := (l.getLast?.map (·.age)).getD 0

/-- A receiver that hunts goes through bytes it has received, the first `skip` of which it has taken already (R186): the frames it completes are handed on, each with how many ds ago its last check byte arrived; one that is unfit, or that has taken 5 ds without its last check byte, is abandoned and gone through from behind its own marker, and one still incomplete leaves it in frame,
behind a marker that arrived some ds ago. -/
def goThrough (p : Port) : Nat → List HeardByte → List (Instr × Nat) × Option Nat
  | _, [] => ([], none)
  | skip + 1, _ :: rest => goThrough p skip rest
  | 0, b :: rest =>
    if b.byte = 0xC3 then
      match behindMarker (rest.map (·.byte)) with
      | .incomplete => if b.age < 5 then ([], some b.age) else goThrough p 0 rest
      | .unfit => goThrough p 0 rest
      | .whole size kind body =>
        let age := lastAge (rest.take size)
        if b.age ≤ age + 5 then
          let r := goThrough p size rest
          ((handOnFrameContent p kind body, age) :: r.1, r.2)
        else goThrough p 0 rest
    else goThrough p 0 rest

/-- Bytes that arrive together. -/
def heardTogether (l : List Byte) : List HeardByte := l.map fun b => { byte := b, age := 0 }

/-- A frame that is abandoned, as the command it is: on the radio port the report that does not fit. -/
def abandonFrame (p : Port) (why : List HeardByte → AbandonReason) (l : List Byte) : Instr :=
  match p with
  | .radio => .radioReport (.unfit (heardTogether l))
  | .supervisor => .abandonedFrame .supervisor (why (heardTogether l))
  | .signal => .abandonedFrame .signal (why (heardTogether l))
  | .corridor => .abandonedFrame .corridor (why (heardTogether l))

/-- The bytes that follow a marker, up to the last check byte, and that arrive together, as the command they are (R186, R187). -/
def receiveFrame (p : Port) (l : List Byte) : Instr :=
  match l with
  | l1 :: l0 :: rest =>
    let n := num2 l1 l0
    if n = 0 ∨ 1024 < n then abandonFrame p .length l
    else
      let inner := rest.take n
      match rest.drop n with
      | [c1, c0] =>
        if crc (l1 :: l0 :: inner) = BitVec.ofNat 16 (num2 c1 c0) then
          match inner with
          | [] => abandonFrame p .length l
          | kind :: body => handOnFrameContent p kind body
        else abandonFrame p .checkWord l
      | _ => abandonFrame p .length l
  | _ => abandonFrame p .length l

/-! ### Writing (R185, R188, R189) -/

def optionalField (f : OptionalField) : List Byte := byte1 f.presence ++ (if f.presence = 1 then byte1 f.value else [])

def tableCode : TableName → Nat
  | .junction => 1
  | .phase => 2
  | .gate => 3
  | .approach => 4
  | .reach => 5
  | .entry => 6
  | .routeRange => 7
  | .group => 8
  | .cls => 9
  | .level => 10
  | .enables => 11
  | .parameter => 12

def writtenTable : WrittenEntry → TableName
  | .junction _ _ => .junction
  | .phase _ _ _ _ _ => .phase
  | .gate _ _ _ _ => .gate
  | .approach _ _ _ _ _ _ => .approach
  | .reach _ _ _ _ _ => .reach
  | .entry _ _ => .entry
  | .routeRange _ _ _ => .routeRange
  | .group _ => .group
  | .cls _ => .cls
  | .level _ _ => .level
  | .enables _ _ _ _ => .enables
  | .parameter _ => .parameter

/-- A group of switches as carried. -/
def groupBytes (l : List Nat) : List Byte := l.flatMap byte1

def writtenValues : WrittenEntry → List Byte
  | .junction present count => byte1 present ++ byte1 count
  | .phase split minGreen clearance maxExtension guarded =>
    byte2 split ++ byte2 minGreen ++ byte2 clearance ++ byte2 maxExtension ++ byte1 guarded
  | .gate mode m u tu => byte1 mode ++ byte1 m ++ byte1 u ++ byte1 tu
  | .approach j p n w x limit => optionalField j ++ byte1 p ++ byte1 n ++ byte1 w ++ optionalField x ++ byte1 limit
  | .reach length cruise stop mode dwell => byte2 length ++ byte1 cruise ++ byte1 stop ++ byte1 mode ++ byte2 dwell
  | .entry a link => optionalField a ++ byte2 link
  | .routeRange low high g => byte2 low ++ byte2 high ++ byte1 g
  | .group c => byte1 c
  | .cls t => byte1 t
  | .level cap floor => byte2 cap ++ byte1 floor
  | .enables a g l r => groupBytes a ++ groupBytes g ++ groupBytes l ++ groupBytes r
  | .parameter v => byte2 v

/-- The kind byte and body of a request (R188), where its body fits its kind. -/
def requestContent {α : Type} (kind : Nat) (f : α → List Byte) (r : Request α) : Option (Port × Byte × List Byte) :=
  r.body.map fun b => (.supervisor, BitVec.ofNat 8 kind, byte1 r.number.toNat ++ f b)

/-- The port, kind byte and body of the frame that brings a command; none for a command that no whole frame brings. -/
def frameContent : Instr → Option (Port × Byte × List Byte)
  | .radioReport (.report v a b) =>
    some (.radio, BitVec.ofNat 8 (reportKindCode b), byte2 v ++ byte1 a ++ reportFields b)
  | .radioReport (.unknownKind k) => some (.radio, k, [])
  | .handOnArrival h =>
    some (.corridor, 0x30, byte2 h.vehicle ++ byte2 h.route ++ signed2 h.deviation ++ byte1 h.entry)
  | .phaseStatus r =>
    some (.signal, 0x21, byte1 r.junction ++ byte1 r.phase ++ byte1 (intervalCode r.interval) ++ byte2 r.elapsed ++
      byte2 r.remaining)
  | .occupancy j percent => some (.signal, 0x22, byte1 j ++ byte1 percent)
  | .detectorCall j a presence => some (.signal, 0x23, byte1 j ++ byte1 a ++ byte1 presence)
  | .ack j t accepted => some (.signal, 0x24, byte1 j ++ byte1 t.toNat ++ byte1 (if accepted then 0 else 1))
  | .readStatus r => requestContent 0x01 (fun _ => []) r
  | .unknownRequest kind number => some (.supervisor, kind, byte1 number.toNat)
  | .readTrack r => requestContent 0x02 byte2 r
  | .readSet r => requestContent 0x03 byte1 r
  | .readJunction r => requestContent 0x04 byte1 r
  | .readList r => requestContent 0x05 byte1 r
  | .holdSlot r => requestContent 0x06 byte1 r
  | .releaseSlot r => requestContent 0x07 (fun _ => []) r
  | .readConfig r => requestContent 0x08 (fun x => byte1 (tableCode x.table) ++ byte1 x.index) r
  | .readConfigSlot r => requestContent 0x08 (fun i => byte1 13 ++ byte1 i) r
  | .writeConfig r =>
    requestContent 0x09 (fun w => byte1 (tableCode (writtenTable w.values)) ++ byte1 w.index ++ writtenValues w.values) r
  | .writeConfigSlot r =>
    requestContent 0x09 (fun w =>
      byte1 13 ++ byte1 w.index ++ byte1 w.code ++ groupBytes w.approachSwitches ++ groupBytes w.kindSwitches) r
  | .setGate r => requestContent 0x0A (fun g => byte1 g.junction ++ byte1 g.mode ++ byte1 g.m ++ byte1 g.u ++ byte1 g.tu) r
  | .setEnables r => requestContent 0x0B (fun x => byte1 x.group ++ groupBytes x.switches) r
  | .clearFlags r =>
    requestContent 0x0C (fun x =>
      counted byte1 x.slots ++ counted (fun p : Nat × Nat => byte1 p.1 ++ byte1 p.2) x.rises ++ counted byte1 x.classes ++
        counted byte1 x.approaches ++ byte1 x.overflow) r
  | .clearFault r => requestContent 0x0D (fun x => byte1 x.junction ++ counted byte1 x.kinds) r
  | .rule r =>
    requestContent 0x0E (fun x => byte1 x.cls ++ byte2 x.vehicle ++ byte1 x.ruling ++ optional byte2 x.value) r
  | .tag r => requestContent 0x0F byte1 r
  | .untag r => requestContent 0x10 byte1 r
  | .clearJunction r => requestContent 0x11 byte1 r
  | .restart r => requestContent 0x12 (fun _ => []) r
  | .commitConfig r => requestContent 0x13 (fun _ => []) r
  | .lockConfig r => requestContent 0x14 (fun _ => []) r
  | .coldStart => none
  | .radioReport (.unfit _) => none
  | .radioReport .misfit => none
  | .frameTimeout _ => none
  | .takeReport => none
  | .takeHandOn => none
  | .stallLimit => none
  | .mirrorStale _ => none
  | .ackTimeout _ => none
  | .recoveryDeadline _ => none
  | .windowDeadline _ => none
  | .averagingDeadline => none
  | .leakDeadline => none
  | .staleDeadline _ _ => none
  | .expectDeadline _ _ => none
  | .dwellDeadline _ _ => none
  | .referralDeadline => none
  | .storeWriteComplete _ => none
  | .supervisorFrameComplete => none
  | .portFrameComplete _ => none
  | .corridorClockTick => none
  | .markerByte _ => none
  | .abandonedFrame _ _ => none

/-- The frame that brings a command, after its marker (R185), and the port it comes on. -/
def encodeFrame (i : Instr) : Option (Port × List Byte) :=
  (frameContent i).map fun x =>
    let inner := byte2 (1 + x.2.2.length) ++ x.2.1 :: x.2.2
    (x.1, inner ++ byte2 (crc inner).toNat)

end Machine

end Sys2Proof
end

