-- ==== Sys2Proof/Machine/Feasibility.lean ====
section
/-!
DEFINITION. Machine/Feasibility.lean: the green window, the saving, the verdicts and the cut distribution (R112–R115).
-/
namespace Sys2Proof.Machine

/-- The outcome of a judgement (R104): a last verdict, or an order that wins. -/
inductive Verdict where
  | keep (v : LastVerdict)
  | extend (amount : Nat)
  | early (cuts : List (PhaseNo × Nat))
  deriving DecidableEq, Repr, Inhabited

/-- Whether a phase is the current phase with interval GREEN. -/
def Mirror.green (m : Mirror) (p : PhaseNo) : Bool := m.phase == p && m.interval == .green

/-- The phases strictly between the mirror's current phase and `p` in a junction's ring (R5). -/
def State.between (s : State) (j : JunctionNo) (m : Mirror) (p : PhaseNo) : List PhaseNo :=
  phasesBetween (s.image.junction j).phaseCount m.phase p

/-- The green window of a bus phase, from G_s to G_e (R112). -/
def State.greenWindow (s : State) (j : JunctionNo) (m : Mirror) (p : PhaseNo) : Clock × Clock :=
  if m.green p then (m.receipt - BitVec.ofNat 32 m.elapsed, after m.receipt m.remaining)
  else
    let own := if m.interval = .green then (s.image.phase j m.phase).clearance else 0
    let others := ((s.between j m p).map fun q => (s.image.phase j q).split + (s.image.phase j q).clearance).sum
    let gs := after m.receipt (m.remaining + own + others)
    (gs, after gs (s.image.phase j p).split)

/-- The savings before a bus phase, phase by phase in ring order from the current phase (R113). A current phase that is no longer in the ring
can give nothing (R5, log 48). -/
def State.savings (s : State) (j : JunctionNo) (m : Mirror) (p : PhaseNo) : List (PhaseNo × Nat) :=
  let c := s.image.phase j m.phase
  let own :=
    if m.interval = .green ∧ ¬ c.guarded ∧ m.phase ≠ p ∧ inRing (s.image.junction j).phaseCount m.phase then
      m.remaining - (c.minGreen - m.elapsed)
    else 0
  (m.phase, own) :: (s.between j m p).map fun q =>
    let e := s.image.phase j q
    (q, if e.guarded then 0 else e.split - e.minGreen)

/-- The saving S (R113). -/
def totalSaving (l : List (PhaseNo × Nat)) : Nat := (l.map (·.2)).sum

/-- The cut list of a cut C over the savings: each phase takes as much of what remains as its saving allows (R115). -/
def distributeCut : Nat → List (PhaseNo × Nat) → List (PhaseNo × Nat)
  | _, [] => []
  | c, (q, saving) :: rest =>
    let cut := min c saving
    if cut = 0 then distributeCut c rest else (q, cut) :: distributeCut (c - cut) rest

/-- The extension in force for a phase: the grant's where a grant is in force on it, and 0 otherwise (R114). -/
def Junction.extensionOn (x : Junction) (p : PhaseNo) : Nat :=
  match x.grant with
  | none => 0
  | some g => if g.busPhase = p then g.extensionInForce else 0

/-- The verdict of the feasibility arithmetic on an ETA `T` later than the clock (R114). -/
def State.feasibility (s : State) (j : JunctionNo) (m : Mirror) (p : PhaseNo) (T : Clock) : Verdict :=
  let w := s.greenWindow j m p
  let gs := w.1
  let ge := w.2
  let due := after T s.image.clearMargin
  let left := s.budgetLeft j
  if later gs T then
    let want := min (totalSaving (s.savings j m p)) (elapsed gs T)
    let cut := min want left
    if s.image.minimumCut ≤ cut then .early (distributeCut cut (s.savings j m p))
    else if left < want then .keep .budget
    else .keep .tooSmall
  else if atOrAfter ge due then .keep .servedByPlan
  else if m.green p then
    let amount := elapsed due ge
    if (s.image.phase j p).maxExtension < amount + (s.junction j).extensionOn p then .keep .limit
    else if left < amount then .keep .budget
    else .extend amount
  else .keep .defer

/-- The judgement of an entry: MISS where its ETA is not later than the clock, and the feasibility arithmetic otherwise (R103). A
junction judges with a mirror that holds a status; without one no order is formed. -/
def State.judge (s : State) (j : JunctionNo) (x : Entry) : Verdict :=
  if later x.eta s.clock then
    match (s.junction j).mirror with
    | none => .keep .defer
    | some m => s.feasibility j m x.busPhase x.eta
  else .keep .miss

end Sys2Proof.Machine
end

