-- ==== Sys2Proof/Machine/Grants.lean ====
section
/-!
DEFINITION. Machine/Grants.lean: the life of a junction's grant: its beginning, its orders and their acknowledgements, its closing and
its end, and the junction's faults (R117–R134).
-/
namespace Sys2Proof.Machine

/-! ### Requests of a grant -/

/-- Every entry of a junction that a test picks becomes WAITING, keeping its last verdict (R124, R127, R133). -/
def makeWaiting (j : JunctionNo) (pick : Entry → Bool) (e : Event) : Event :=
  ((e.junction j).list.filter pick).foldl (fun e x => setRequestState j x .waiting x.verdict e) e

def isRiding (x : Entry) : Bool := x.state == .riding

/-- Whether an entry is GRANTED or RIDING: it claims the grant. -/
def claimsGrant (x : Entry) : Bool := x.state == .granted || x.state == .riding

/-- The state and last verdict a judgement other than EXTEND or EARLY gives an entry (R103). -/
def applyVerdict (j : JunctionNo) (x : Entry) (v : LastVerdict) (e : Event) : Event :=
  setRequestState j x (if v = .servedByPlan then .servedByPlan else .waiting) (some v) e

/-- An update of the grant record. -/
def modGrant (j : JunctionNo) (f : Grant → Grant) (e : Event) : Event :=
  modJunction j (fun x => { x with grant := x.grant.map f }) e

/-! ### The beginning of a grant (R121) -/

/-- The order a winning verdict sends (R121). -/
def orderOf (p : PhaseNo) : Verdict → Option Order
  | .keep _ => none
  | .extend amount => some (.extend p amount)
  | .early cuts => some (.early p cuts)

/-- The grant record formed for a winner (R121 step 2). -/
def grantRecord (s : State) (j : JunctionNo) (m : Mirror) (x : Entry) (v : Verdict) (window : WindowNumber) : Grant :=
  let w := s.greenWindow j m x.busPhase
  let cut := match v with
    | .early cuts => totalSaving cuts
    | _ => 0
  let amount := match v with
    | .extend n => n
    | _ => 0
  let extending := match v with
    | .extend _ => true
    | _ => false
  let start := if extending then w.1 else w.1 - BitVec.ofNat 32 cut
  { holder := some { vehicle := x.vehicle, way := x.way }
    busPhase := x.busPhase
    kind := if extending then .extend else .early
    windowStart := start
    bound := if extending then after w.2 amount else after start (s.image.phase j x.busPhase).split
    plannedEnd := if extending then some w.2 else none
    extensionInForce := 0
    cut := 0
    cutCharged := 0
    extensionCharged := 0
    chargeWindow := window
    closing := false
    target := none
    candidate := none
    ending := none
    lastHolder := { vehicle := x.vehicle, way := x.way }
    startDue := true }

/-- Steps 2 to 4 of R121, with the closing of the gate (R99): the grant record is formed, the order sent or placed, the winner becomes GRANTED,
and the other entries are reviewed. The same holds at a pre-emption (R130). -/
def startGrant (j : JunctionNo) (x : Entry) (v : Verdict) (e : Event) : Event :=
  match (e.junction j).mirror, orderOf x.busPhase v with
  | some m, some o =>
    let (free, e1) := freshNat e
    let g := grantRecord e.toState j m x v (BitVec.ofNat 16 free)
    let e2 := modJunction j (fun y => { y with
      grant := some g, gate := closeGate y.gate x.tier, state := .ordering }) e1
    review j (setRequestState j x .granted none (needOrder j o true e2))
  | _, _ => e

/-- The grant of an evaluation's winner begins: the gate is saved, the sequence borrowed total set to 0 (R99, R121). -/
def openGrant (j : JunctionNo) (x : Entry) (v : Verdict) (e : Event) : Event :=
  startGrant j x v (modJunction j (fun y => { y with saved := some y.gate, sequenceBorrowed := 0 }) e)

/-! ### The end of a grant (R131, R132) -/

/-- The recovery length of a grant sequence (R132). -/
def State.recoveryLength (s : State) (j : JunctionNo) : Nat :=
  max s.image.recoveryMinimum (ceilDiv ((s.junction j).sequenceBorrowed * s.image.recoveryRatio) 4)

/-- The end of a grant sequence: the gate is restored and the junction enters RECOVERY, or IDLE and evaluates (R100, R132). -/
def finishSequence (j : JunctionNo) (e : Event) : Event :=
  let length := e.recoveryLength j
  if length = 0 then
    trigger j (review j (modJunction j (fun x => { restoreGate x with state := .idle }) e))
  else
    review j (modJunction j (fun x => { restoreGate x with
      state := .recovery, recoveryDeadline := some (after e.clock length) }) e)

/-- A GRANT end notice, where the junction's enable is on (R131, R133). -/
def grantEndNotice (j : JunctionNo) (g : Grant) (ending : Ending) (borrowed : Nat) (e : Event) : Event :=
  if e.image.enables.grantNotice.get j then
    offer (.grantEnd j g.lastHolder.vehicle g.busPhase ending borrowed) e
  else e

/-- What a junction keeps of its orders when its grant record goes: an order of the grant still outstanding belongs to no grant, and a
pending order of the grant is discarded (R117, R118, R133; log 12). -/
def disownOrders (x : Junction) : Junction :=
  { x with
    outstanding := x.outstanding.map fun o => { o with ofGrant := false }
    pendingOrder := x.pendingOrder.filter fun o => !o.ofGrant }

/-- A grant ends (R131): the refund is offered, the borrowed time added to the sequence total, the GRANT end notice queued and the record
dropped. Requests that still claim the grant become WAITING. -/
def endGrant (j : JunctionNo) (ending : Ending) (amount : Nat) (e : Event) : Event :=
  match (e.junction j).grant with
  | none => e
  | some g =>
    let borrowed := g.cutCharged + g.extensionCharged - amount
    let e1 := makeWaiting j claimsGrant (refund j amount g.chargeWindow e)
    let e2 := modJunction j (fun x => { disownOrders x with
      grant := none, sequenceBorrowed := saturate 12000 (x.sequenceBorrowed + borrowed) }) e1
    grantEndNotice j g ending borrowed e2

/-- The refund at the ACCEPTED of a RELEASE, and of a CANCEL in a grant whose extension charged is above 0, at clock `a` (R131). -/
def refundAmount (g : Grant) (a : Clock) : Nat :=
  match g.plannedEnd with
  | none => 0
  | some pe => g.extensionCharged - overrun a pe

/-- The pending order is sent, where nothing is outstanding (R117). A pending EARLY is cut from the mirror as it stands; where the savings no
longer give its cut it is not sent, and the grant ends EXPIRED. -/
def sendPending (j : JunctionNo) (e : Event) : Event :=
  let x := e.junction j
  match x.outstanding, x.pendingOrder with
  | none, some po =>
    let e1 := modJunction j (fun x => { x with pendingOrder := none }) e
    match po.order with
    | .early p cuts =>
      let cut := totalSaving cuts
      let savings := (x.mirror.map fun m => e.savings j m p).getD []
      if totalSaving savings < cut then finishSequence j (endGrant j .expired 0 e1)
      else sendOrder j (.early p (distributeCut cut savings)) po.ofGrant e1
    | .extend p n => sendOrder j (.extend p n) po.ofGrant e1
    | .release p => sendOrder j (.release p) po.ofGrant e1
    | .cancel => sendOrder j .cancel po.ofGrant e1
  | _, _ => e

/-! ### Faults (R133) -/

def setFault (k : FaultKind) (f : FaultFlags) : FaultFlags :=
  match k with
  | .refused => { f with refused := true }
  | .noAck => { f with noAck := true }
  | .badAck => { f with badAck := true }

/-- A grant in progress is dropped at a fault: nothing is refunded and no RECOVERY follows (R133). -/
def dropGrant (j : JunctionNo) (e : Event) : Event :=
  match (e.junction j).grant with
  | none => e
  | some g =>
    grantEndNotice j g .fault (g.cutCharged + g.extensionCharged)
      (modJunction j (fun x => { x with grant := none }) (makeWaiting j claimsGrant e))

/-- A fault is raised (R133): its flag is set, a FAULT notice queued, and the junction enters FROZEN from whatever state it was in. A refusal, a
timeout and an entry to FROZEN discard the pending order; a BAD_ACK of a junction already FROZEN leaves it (R117). -/
def raiseFault (j : JunctionNo) (k : FaultKind) (tag : Tag) (e : Event) : Event :=
  let e1 := offer (.fault j k tag) (modJunction j (fun x => { x with faults := setFault k x.faults }) e)
  let e2 := withdrawConflict j (dropGrant j e1)
  review j (modJunction j (fun x => { restoreGate x with
    state := .frozen
    recoveryDeadline := none
    pendingOrder := if x.state = .frozen ∧ k = .badAck then x.pendingOrder else none
    outstanding := x.outstanding.map fun o => { o with ofGrant := false } }) e2)

/-! ### Closing a grant (R126, R127, R130) -/

/-- The grant is closed with an ending: its RELEASE or CANCEL is sent or placed, and the junction is ORDERING. -/
def closeGrant (j : JunctionNo) (o : Order) (ending : Ending) (e : Event) : Event :=
  review j (modJunction j (fun x => { x with state := .ordering })
    (needOrder j o true (modGrant j (fun g => { g with closing := true, ending := some ending }) e)))

/-- The rider with the earliest ETA, taken in list order among equal ETAs (R126). -/
def earliestRider (l : List Entry) : Option Entry :=
  (l.filter isRiding).foldl (fun best x =>
    match best with
    | none => some x
    | some y => if earlier x.eta y.eta then some x else some y) none

/-- A listed request takes over the grant (R126). -/
def transferGrant (j : JunctionNo) (x : Entry) (e : Event) : Event :=
  let r : TrackRef := { vehicle := x.vehicle, way := x.way }
  setRequestState j x .granted none (modGrant j (fun g => { g with holder := some r, lastHolder := r }) e)

/-- Holder passed (R126). The holder has left the list. -/
def holderPassed (j : JunctionNo) (e : Event) : Event :=
  let x := e.junction j
  match x.grant with
  | none => e
  | some g =>
    if g.closing then modGrant j (fun g => { g with holder := none }) e
    else
      match earliestRider x.list with
      | some r => transferGrant j r e
      | none =>
        match g.candidate.bind fun v => findEntry v x.list with
        | some c => transferGrant j c e
        | none =>
          let o := match g.kind with
            | .extend => Order.release g.busPhase
            | .early => Order.cancel
          closeGrant j o .passed (modGrant j (fun g => { g with holder := none }) e)

/-- Holder lost or withdrawn (R127). The holder has left the list; a loss has reported its phantom. Every rider becomes WAITING, the track left in way A at an eviction
under R46 included (DESIGN CHOICE, log 55). -/
def holderLeft (j : JunctionNo) (ending : Ending) (e : Event) : Event :=
  match (e.junction j).grant with
  | none => e
  | some g =>
    let bare := modGrant j (fun g => { g with holder := none, candidate := none })
    if g.closing then bare e
    else closeGrant j .cancel ending (bare (makeWaiting j isRiding e))

/-- A pre-emption begins for a target (R130). -/
def preempt (j : JunctionNo) (target : Entry) (e : Event) : Event :=
  closeGrant j .cancel .preempted
    (modGrant j (fun g => { g with target := some target.vehicle }) (makeWaiting j isRiding e))

/-- A grant expires (R128 unseen, R129): the holder and the riders become WAITING. Where an order of the grant is outstanding the grant waits
for its ACK and sends nothing more; otherwise it ends. A record that waits has its holder, candidate and target absent (DESIGN CHOICE, log 58). -/
def expireGrant (j : JunctionNo) (e : Event) : Event :=
  let e1 := makeWaiting j claimsGrant e
  if ((e.junction j).outstanding.map (·.ofGrant)).getD false then
    review j (modJunction j (fun x => { x with
      pendingOrder := none
      grant := x.grant.map fun g => { g with holder := none, candidate := none, target := none, ending := some .expired } }) e1)
  else finishSequence j (endGrant j .expired 0 e1)

/-! ### Acknowledgements (R118, R122, R123, R130, R131) -/

/-- The action received after a charge of a kind (R50). A further charge of either kind leaves EARLY+EXTEND as it is (DEDUCED, log 56). -/
def chargedAction (a : Action) (k : GrantKind) : Action :=
  match k, a with
  | .extend, .early => .earlyExtend
  | .extend, .earlyExtend => .earlyExtend
  | .extend, .none => .extend
  | .extend, .extend => .extend
  | .extend, .ride => .extend
  | .early, .extend => .earlyExtend
  | .early, .earlyExtend => .earlyExtend
  | .early, .none => .early
  | .early, .early => .early
  | .early, .ride => .early

/-- A charge notice reaches TM (R50). For a bus still on the approach (`current`) it adds to the accumulators; after passage it adds to the pending
record of the same junction of a CLEARED track; in any other condition it changes nothing. -/
def chargeTrack (j : JunctionNo) (current : Bool) (r : TrackRef) (k : GrantKind) (amount : Nat) (t : Track) : Track :=
  if t.vehicle ≠ r.vehicle then t
  else
    match t.state with
    | .expected => t
    | .cleared =>
      match t.journey with
      | none => t
      | some rec =>
        if rec.junction = j then
          { t with journey := some { rec with
              action := chargedAction rec.action k, borrowed := saturate 12000 (rec.borrowed + amount) } }
        else t
    | .approaching =>
      if current then { t with action := chargedAction t.action k, borrowed := saturate 12000 (t.borrowed + amount) } else t
    | .dwelling =>
      if current then { t with action := chargedAction t.action k, borrowed := saturate 12000 (t.borrowed + amount) } else t

/-- The GRANT start notice at the ACCEPTED of a grant's first order, where the junction's enable is on (R122). -/
def grantStartNotice (j : JunctionNo) (o : Order) (e : Event) : Event :=
  match (e.junction j).grant with
  | none => e
  | some g =>
    if g.startDue then
      let e1 := modGrant j (fun g => { g with startDue := false }) e
      if e.image.enables.grantNotice.get j then
        match o with
        | .extend p n => offer (.grantStart j g.lastHolder.vehicle p .extend n) e1
        | .early p cuts => offer (.grantStart j g.lastHolder.vehicle p .early (totalSaving cuts)) e1
        | .release _ => e1
        | .cancel => e1
      else e1
    else e

/-- The charge at the ACCEPTED of an EXTEND of a total extension (R122, R125): the grant's fields, the charge notice, and the stretch candidate, which
rides from now on. -/
def acceptExtend (j : JunctionNo) (g : Grant) (total : Nat) (e : Event) : Event :=
  let (taken, e1) := charge j (total - g.extensionInForce) e
  let window := (e.junction j).windowNumber
  let candidate := g.candidate.bind fun v => findEntry v (e.junction j).list
  let payer : TrackRef := match candidate with
    | some c => { vehicle := c.vehicle, way := c.way }
    | none => g.lastHolder
  let e2 := modGrant j (fun g => { g with
    extensionCharged := g.extensionCharged + taken
    chargeWindow := window
    extensionInForce := total
    bound := match g.plannedEnd with
      | some pe => after pe total
      | none => g.bound
    candidate := none }) e1
  let e3 := modTrack (placeOf payer.vehicle payer.way) (chargeTrack j (candidate.isSome || g.holder.isSome) payer .extend taken) e2
  match candidate with
  | some c => if g.holder = some payer then e3 else setRequestState j c .riding c.verdict e3
  | none => e3

/-- The charge at the ACCEPTED of an EARLY (R122). -/
def acceptEarly (j : JunctionNo) (g : Grant) (cuts : List (PhaseNo × Nat)) (e : Event) : Event :=
  let cut := totalSaving cuts
  let (taken, e1) := charge j cut e
  let e2 := modGrant j (fun g => { g with cutCharged := g.cutCharged + taken, cut := cut }) e1
  modTrack (placeOf g.lastHolder.vehicle g.lastHolder.way) (chargeTrack j g.holder.isSome g.lastHolder .early taken) e2

/-- The ACCEPTED of an outstanding EXTEND or EARLY of the grant (R122, R129). -/
def acceptTime (j : JunctionNo) (o : Order) (e : Event) : Event :=
  match (e.junction j).grant with
  | none => e
  | some g =>
    let e1 := grantStartNotice j o e
    if g.ending = some .expired then finishSequence j (endGrant j .expired 0 e1)
    else if ((e.junction j).pendingOrder.map (·.order)) = some .cancel then
      sendPending j (modGrant j (fun g => { g with candidate := none }) e1)
    else
      let e2 := match o with
        | .extend _ total => acceptExtend j g total e1
        | .early _ cuts => acceptEarly j g cuts e1
        | .release _ => e1
        | .cancel => e1
      if (e.junction j).pendingOrder.isSome then sendPending j e2
      else review j (modJunction j (fun x => { x with state := .inForce }) e2)

/-- The target of a pre-emption is judged afresh at the ACCEPTED of the CANCEL (R130): it takes the junction over, or the grant sequence ends. -/
def takeOver (j : JunctionNo) (target : Option Nat) (e : Event) : Event :=
  let e1 := review j e
  match target.bind fun v => findEntry v (e1.junction j).list with
  | none => finishSequence j e1
  | some x =>
    if admissible e1.toState j x then
      match e1.judge j x with
      | .keep v => finishSequence j (applyVerdict j x v e1)
      | .extend n => startGrant j x (.extend n) e1
      | .early cuts => startGrant j x (.early cuts) e1
    else finishSequence j e1

/-- The ACCEPTED of a grant's closing RELEASE or CANCEL (R130, R131). -/
def acceptClose (j : JunctionNo) (o : Order) (e : Event) : Event :=
  match (e.junction j).grant with
  | none => e
  | some g =>
    let amount := if orderKind o = .release ∨ 0 < g.extensionCharged then refundAmount g e.clock else 0
    let ending := g.ending.getD .withdrawn
    let e1 := endGrant j ending amount e
    let e2 := if ending = .preempted then takeOver j g.target e1 else finishSequence j e1
    sendPending j e2

/-- The ACCEPTED of an outstanding order that belongs to no grant (R118 step 1). -/
def acceptOrphan (j : JunctionNo) (o : Order) (e : Event) : Event :=
  if asksTime (orderKind o) then sendOrder j .cancel false e else sendPending j e

/-- The ACK of the outstanding order (R118 step 1, R122, R123). -/
def answerOutstanding (j : JunctionNo) (o : Outstanding) (accepted : Bool) (e : Event) : Event :=
  let e1 := modJunction j (fun x => { x with outstanding := none }) e
  if accepted then
    if o.ofGrant then
      if asksTime (orderKind o.order) then acceptTime j o.order e1 else acceptClose j o.order e1
    else acceptOrphan j o.order e1
  else raiseFault j .refused o.tag e1

/-- The ACK of the abandoned tag (R118 step 3). -/
def answerAbandoned (j : JunctionNo) (k : OrderKind) (accepted : Bool) (e : Event) : Event :=
  let e1 := modJunction j (fun x => { x with abandoned := none }) e
  if accepted && asksTime k then needOrder j .cancel false e1 else e1

/-- An ACK of a junction is matched against its tags in the order of R118. -/
def matchAck (j : JunctionNo) (tag : Tag) (accepted : Bool) (e : Event) : Event :=
  let x := e.junction j
  match x.outstanding.filter fun o => o.tag == tag with
  | some o => answerOutstanding j o accepted e
  | none =>
    if tag ∈ x.discard then modJunction j (fun x => { x with discard := x.discard.filter fun t => t != tag }) e
    else
      match x.abandoned.filter fun a => a.1 == tag with
      | some a => answerAbandoned j a.2 accepted e
      | none => raiseFault j .badAck tag e

/-- The expiry of an ack deadline (R118, R123). -/
def timeoutOrder (j : JunctionNo) (o : Outstanding) (e : Event) : Event :=
  raiseFault j .noAck o.tag
    (modJunction j (fun x => { x with outstanding := none, abandoned := some (o.tag, orderKind o.order) }) e)

/-! ### Resets of a junction (R134) -/

/-- A junction's arbiter and mirror take their values of a warm restart or a junction clear (R90, R98, R107, R109, R111, R120, R132–R134): a CANCEL is
sent where a grant runs, and the discard set is formed. The budget window is the caller's. -/
def resetJunction (j : JunctionNo) (e : Event) : Event :=
  let x := e.junction j
  let running := x.state = .ordering ∨ x.state = .inForce
  let tags := (x.outstanding.map (·.tag)).toList ++ (x.abandoned.map (·.1)).toList
  let x' : Junction := { x with
    list := [], gate := e.image.gates.get j, saved := none, carry := none, mirror := none, stale := true, staleDeadline := none,
    lastCall := none, state := .idle, faults := noFaults, outstanding := none, pendingOrder := none, abandoned := none,
    discard := if running then tags ++ [x.tagCounter] else tags,
    tagCounter := if running then x.tagCounter + 1 else x.tagCounter,
    grant := none, sequenceBorrowed := 0, recoveryDeadline := none }
  { e with
    toState := e.toState.setJunction j x'
    orders := if running then e.orders ++ [{ junction := j, tag := x.tagCounter, order := .cancel }] else e.orders }

/-- A junction clear (R175): the arbiter and mirror, the budget window with the next number (R141), TM's marks on the tracks listed there (R42), and AU's
conflict referral of the junction (R158). -/
def clearJunction (j : JunctionNo) (e : Event) : Event :=
  let e1 := resetJunction j e
  let e2 := modJunction j (fun x => { x with
    used := 0, windowNumber := x.windowNumber + 1, windowDeadline := after e.clock e.image.budgetWindow }) e1
  withdrawConflict j (mapTracks (fun t => if t.listed = some j then { t with listed := none, pinned := false } else t) e2)

end Sys2Proof.Machine
end

