-- ==== Sys2Proof/Machine/Lists.lean ====
section
/-!
DEFINITION. Machine/Lists.lean: posting, update, displacement and withdrawal of requests (R91–R94), and the listed mark TM keeps (R49, R50).
-/
namespace Sys2Proof.Machine

/-- What TM gives with a post or an update (R91, R93). -/
structure Posting where
  vehicle : Nat
  way : Way
  approach : ApproachNo
  busPhase : PhaseNo
  tier : Nat
  cls : LateClass
  eta : Clock
  suspended : Bool
  deriving DecidableEq, Repr, Inhabited

/-- The new entry of a post at a clock value (R91). -/
def newEntry (p : Posting) (now : Clock) : Entry :=
  { vehicle := p.vehicle, way := p.way, approach := p.approach, busPhase := p.busPhase, tier := p.tier, cls := p.cls,
    eta := p.eta, suspended := p.suspended, firstListed := now, confirmed := false, referred := false, state := .waiting,
    hold := none, verdict := none }

/-- A junction whose conflict referral names a vehicle that leaves its list: the referral is withdrawn, and an AWAIT_RULING junction enters IDLE
and evaluates (R92, R94, R106). -/
def dropClaim (j : JunctionNo) (vehicle : Nat) (e : Event) : Event :=
  if e.keepsPlace j vehicle then
    let e1 := closeReferral e
    if (e.junction j).state = .awaitRuling then
      trigger j (review j (modJunction j (fun x => { x with state := .idle }) e1))
    else e1
  else e

/-- A vehicle leaves a junction's list: its entry goes, the grant's stretch candidate and pre-emption target are dropped where they name it (R125, R130),
and a conflict referral that names it is withdrawn. A list change is an evaluation trigger (R94, R102). -/
def leaveList (j : JunctionNo) (vehicle : Nat) (e : Event) : Event :=
  let e1 := modJunction j (fun x => { x with
    list := removeEntry vehicle x.list
    grant := x.grant.map fun g => { g with
      candidate := g.candidate.filter fun v => v != vehicle
      target := g.target.filter fun v => v != vehicle } }) e
  dropClaim j vehicle (trigger j e1)

/-- TM's answer to a listed answer: the listed mark, and at the first listing of the approach its time and ETA (R49, R50). -/
def markListed (j : JunctionNo) (p : Posting) (now : Clock) (t : Track) : Track :=
  if t.vehicle = p.vehicle then
    { t with
      listed := some j
      firstListed := if t.firstListed.isSome then t.firstListed else some now
      firstEta := if t.firstListed.isSome then t.firstEta else some p.eta }
  else t

/-- The new entry is listed at its position and reviewed; the posting is a list change (R91, R97, R102). -/
def listEntry (j : JunctionNo) (p : Posting) (e : Event) : Event :=
  let e1 := modJunction j (fun x => { x with list := insertEntry (fun y => e.keepsPlace j y.vehicle) (newEntry p e.clock) x.list }) e
  trigger j (review j (modTrack (placeOf p.vehicle p.way) (markListed j p e.clock) e1))

/-- The displaceable entry: the entry nearest the tail that is neither GRANTED nor RIDING (R92). -/
def displaceable (l : List Entry) : Option Entry := l.reverse.find? fun x => !claimsGrant x

/-- A displacement (R92): the entry leaves the list, and TM sets its track's listed field absent and its pin no. -/
def displace (j : JunctionNo) (x : Entry) (e : Event) : Event :=
  leaveList j x.vehicle
    (noticeTrack j { vehicle := x.vehicle, way := x.way } (fun t => { t with listed := none, pinned := false }) e)

/-- A RIDING entry whose ETA an update has put outside the grant's window becomes WAITING (R124). -/
def recheckRider (j : JunctionNo) (vehicle : Nat) (e : Event) : Event :=
  let x := e.junction j
  match x.grant, findEntry vehicle x.list with
  | some g, some y =>
    let due := after y.eta e.image.clearMargin
    if y.state = .riding ∧ (later due g.bound ∨ earlier y.eta g.windowStart) then setRequestState j y .waiting y.verdict e
    else e
  | _, _ => e

/-- The new values of an update written into an entry (R93). -/
def updatedEntry (p : Posting) (x : Entry) : Entry :=
  { x with way := p.way, tier := p.tier, cls := p.cls, eta := p.eta, suspended := p.suspended }

/-- An update of a listed request (R93): the new values are written, the entry moves to its position, and is reviewed. One of the two of an open conflict referral
keeps its place (R106). -/
def updateRequest (j : JunctionNo) (p : Posting) (e : Event) : Event :=
  let kept (x : Entry) : Bool := e.keepsPlace j x.vehicle
  let e1 := modJunction j (fun x => { x with
    list := match findEntry p.vehicle x.list with
      | none => x.list
      | some y =>
        if kept y then updateEntry p.vehicle (updatedEntry p) x.list
        else insertEntry kept (updatedEntry p y) (removeEntry p.vehicle x.list) }) e
  trigger j (review j (recheckRider j p.vehicle e1))

/-- A post to a full list (R92). One that is not listed leaves the list unchanged; it is a list change all the same, as every posting is (R94, R102). -/
def postFull (j : JunctionNo) (p : Posting) (e : Event) : Event :=
  let x := newEntry p e.clock
  let l := (e.junction j).list
  match l.getLast?, displaceable l with
  | some tail, some d =>
    if sortsBefore x tail && sortsBefore x d then listEntry j p (displace j d e) else trigger j e
  | _, _ => trigger j e

/-- A post (R91): an update where the vehicle is listed already, a listing where there is room, and R92 otherwise. -/
def postRequest (j : JunctionNo) (p : Posting) (e : Event) : Event :=
  let l := (e.junction j).list
  if (findEntry p.vehicle l).isSome then
    modTrack (placeOf p.vehicle p.way) (markListed j p e.clock) (updateRequest j p e)
  else if l.length < 12 then listEntry j p e
  else postFull j p e

/-- A withdrawal of a request (R94, R126, R127, R160): TM has already taken its mark away. -/
def withdrawRequest (j : JunctionNo) (vehicle : Nat) (way : Way) (cause : Cause) (e : Event) : Event :=
  match findEntry vehicle (e.junction j).list with
  | none => e
  | some x =>
    if x.way = way then
      let e1 := leaveList j vehicle e
      if x.state = .granted then
        match cause with
        | .passed => holderPassed j e1
        | .withdrawn => holderLeft j .withdrawn e1
        | .lost _ => holderLeft j .lost (countPhantom x.approach vehicle j e1)
      else e1
    else e

/-- TM withdraws the listed request of a track, setting listed absent and pinned no at that event (R49). -/
def withdrawTrack (p : Place) (cause : Cause) (e : Event) : Event :=
  match e.track p with
  | none => e
  | some t =>
    match t.listed with
    | none => e
    | some j =>
      withdrawRequest j t.vehicle p.way cause
        (setTrack p (some { t with listed := none, pinned := false }) e)

/-- TM withdraws the listed requests of every track on an approach, with cause WITHDRAWN (R21). -/
def withdrawApproach (a : ApproachNo) (e : Event) : Event :=
  allPlaces.foldl (fun e p =>
    if ((e.track p).bind (·.approach)) = some a then withdrawTrack p .withdrawn e else e) e

/-- TM's referral mark reaches the entry of the track's listed request, which is reviewed; a change of the referred field is a list change (R88, R97,
R102). -/
def markReferred (p : Place) (referred : Bool) (e : Event) : Event :=
  match e.track p with
  | none => e
  | some t =>
    match t.listed with
    | none => e
    | some j =>
      trigger j (review j (modJunction j (fun x => { x with
        list := updateEntry t.vehicle (fun y => { y with referred := referred }) x.list }) e))

end Sys2Proof.Machine
end

