-- ==== Sys2Proof/Machine/Evaluation.lean ====
section
/-!
DEFINITION. Machine/Evaluation.lean: evaluation and conflict (R102–R107), the grant tests (R124, R125, R130), what a mirror update does to a grant
in progress (R128, R129), and the evaluations of an event.
-/
namespace Sys2Proof.Machine

/-! ### Evaluation (R103–R107) -/

/-- The walk of a reviewed list from its head: each admissible entry but the one to skip is judged, and takes the state and last verdict of its
judgement, until one wins (R103). -/
def walkList (judge : Entry → Verdict) (skip : Option Nat) : List Entry → List Entry × Option (Entry × Verdict)
  | [] => ([], none)
  | x :: xs =>
    if x.state = .held ∨ claimsGrant x ∨ skip = some x.vehicle then
      let r := walkList judge skip xs
      (x :: r.1, r.2)
    else
      match judge x with
      | .keep v =>
        let r := walkList judge skip xs
        ({ x with state := if v = .servedByPlan then .servedByPlan else .waiting, verdict := some v } :: r.1, r.2)
      | .extend n =>
        let y := { x with state := RequestState.waiting, verdict := none }
        (y :: xs, some (y, .extend n))
      | .early cuts =>
        let y := { x with state := RequestState.waiting, verdict := none }
        (y :: xs, some (y, .early cuts))

/-- The next admissible entry: the first after the winner in list order that the opening review found admissible (R105). -/
def nextAdmissible (winner : Nat) (l : List Entry) : Option Entry :=
  ((l.dropWhile fun x => x.vehicle != winner).drop 1).find? fun x => x.state != .held && !claimsGrant x

/-- The entry a winner conflicts with (R105). -/
def conflictWith (window : Nat) (w : Entry) (l : List Entry) : Option Entry :=
  (nextAdmissible w.vehicle l).filter fun x =>
    x.tier == w.tier && x.busPhase != w.busPhase && decide (elapsed x.eta w.eta ≤ window)

def claimOf (x : Entry) : Claim := { vehicle := x.vehicle, tier := x.tier, busPhase := x.busPhase, eta := x.eta }

/-- A winner proceeds, or its conflict is referred and the junction awaits the ruling (R103, R105). -/
def resolveWinner (j : JunctionNo) (w : Entry) (v : Verdict) (e : Event) : Event :=
  match conflictWith e.image.conflictWindow w (e.junction j).list with
  | none => openGrant j w v e
  | some o =>
    let (held, e1) := raiseAnomaly
      { cls := .conflict, vehicle := w.vehicle, place := .junction j, figures := .conflict (claimOf w) (claimOf o),
        held := .conflict w.vehicle o.vehicle } e
    if held then review j (modJunction j (fun x => { x with state := .awaitRuling }) e1)
    else openGrant j w v e1

/-- The walk of a junction's list, and its winner (R103). -/
def walkJunction (j : JunctionNo) (skip : Option Nat) (e : Event) : Option (Entry × Verdict) × Event :=
  let r := walkList (e.judge j) skip (e.junction j).list
  (r.2, modJunction j (fun x => { x with list := r.1 }) e)

/-- The first evaluation after a ruling carry is set (R107): the preferred entry is judged first, and no conflict test is made. -/
def evaluateCarried (j : JunctionNo) (c : Carry) (e : Event) : Event :=
  let e1 := modJunction j (fun x => { x with carry := none }) e
  let walkOn (skip : Option Nat) (e : Event) : Event :=
    match walkJunction j skip e with
    | (some (w, v), e2) => openGrant j w v e2
    | (none, e2) => e2
  match (c.preferred.bind fun v => findEntry v (e1.junction j).list).filter fun x => x.state != .held with
  | none => walkOn none e1
  | some x =>
    match e1.judge j x with
    | .keep v => walkOn (some x.vehicle) (applyVerdict j x v e1)
    | .extend n => openGrant j x (.extend n) e1
    | .early cuts => openGrant j x (.early cuts) e1

/-- An evaluation of an IDLE junction (R103). -/
def evaluate (j : JunctionNo) (e : Event) : Event :=
  let e1 := review j e
  match (e1.junction j).carry with
  | some c => evaluateCarried j c e1
  | none =>
    match walkJunction j none e1 with
    | (none, e2) => e2
    | (some (w, v), e2) => resolveWinner j w v e2

/-! ### The grant tests (R124, R125) -/

/-- Whether an entry may ride the grant in force (R124 step 1). -/
def ridesGrant (s : State) (j : JunctionNo) (g : Grant) (x : Entry) : Bool :=
  x.busPhase == g.busPhase && !claimsGrant x && admissibleApartFromGate s j x && atOrAfter x.eta g.windowStart &&
    later x.eta s.clock && atOrAfter g.bound (after x.eta s.image.clearMargin)

/-- The rider test, in IN_FORCE (R124 step 1). -/
def riderTest (j : JunctionNo) (g : Grant) (e : Event) : Event :=
  ((e.junction j).list.filter (ridesGrant e.toState j g)).foldl (fun e x => setRequestState j x .riding x.verdict e) e

/-- The pre-emption test (R124 step 2): whether a pre-emption began, and the event after. A target becomes or stays WAITING, as any entry whose
judgement is not SERVED_BY_PLAN (R95), and its last verdict becomes absent. -/
def preemptionTest (j : JunctionNo) (g : Grant) (e : Event) : Bool × Event :=
  match (e.junction j).list.find? fun x => admissible e.toState j x && x.busPhase != g.busPhase && !claimsGrant x with
  | none => (false, e)
  | some x =>
    let begins (_ : Unit) : Event :=
      preempt j x (setRequestState j x .waiting none e)
    match e.judge j x with
    | .keep v => (false, applyVerdict j x v e)
    | .extend _ => (true, begins ())
    | .early _ => (true, begins ())

/-- Whether the stretch test may pick an entry (R125). -/
def stretchable (s : State) (j : JunctionNo) (g : Grant) (holder : Entry) (x : Entry) : Bool :=
  x.busPhase == g.busPhase &&
    (x.vehicle == holder.vehicle ||
      (!claimsGrant x && admissibleApartFromGate s j x && decide (holder.tier ≤ x.tier))) &&
    later x.eta s.clock && later (after x.eta s.image.clearMargin) g.bound

/-- The stretch test, in IN_FORCE, for an EXTEND grant (R125). -/
def stretchTest (j : JunctionNo) (g : Grant) (e : Event) : Event :=
  let l := (e.junction j).list
  match g.kind, g.plannedEnd, g.holder.bind fun h => findEntry h.vehicle l with
  | .extend, some pe, some h =>
    match l.find? (stretchable e.toState j g h) with
    | none => e
    | some x =>
      let total := elapsed (after x.eta e.image.clearMargin) pe
      if total ≤ (e.image.phase j g.busPhase).maxExtension ∧ total ≤ g.extensionInForce + e.budgetLeft j then
        review j (modJunction j (fun y => { y with state := .ordering })
          (needOrder j (.extend g.busPhase total) true (modGrant j (fun g => { g with candidate := some x.vehicle }) e)))
      else e
  | _, _, _ => e

/-- Whether a grant is still open to the grant tests: not closing, and not waiting for an ACK after its expiry (R124, R129). -/
def Grant.isOpen (g : Grant) : Bool := !g.closing && g.ending.isNone

/-- The grant tests of a junction that is ORDERING or IN_FORCE with a fresh mirror (R124). -/
def grantTests (j : JunctionNo) (e : Event) : Event :=
  match (e.junction j).grant with
  | none => e
  | some g =>
    if g.isOpen then
      let inForce := (e.junction j).state = .inForce
      let e1 := if inForce then riderTest j g e else e
      let r := if g.target.isNone then preemptionTest j g e1 else (false, e1)
      if r.1 then r.2 else if inForce then stretchTest j g r.2 else r.2
    else e

/-! ### Mirror updates (R128, R129) -/

/-- The end of an early green that completes without a follow-on (R128): the holder takes its state, and the grant ends SERVED. -/
def endServed (j : JunctionNo) (h : Entry) (state : RequestState) (v : Option LastVerdict) (e : Event) : Event :=
  finishSequence j (endGrant j .served 0 (setRequestState j h state v e))

/-- An early green completes (R128). -/
def completeEarly (j : JunctionNo) (g : Grant) (m : Mirror) (e : Event) : Event :=
  let pe := after m.receipt m.remaining
  let e1 := modGrant j (fun g => { g with plannedEnd := some pe, extensionInForce := 0 }) e
  match g.holder.bind fun h => findEntry h.vehicle (e1.junction j).list with
  | none => finishSequence j (endGrant j .served 0 e1)
  | some h =>
    match e1.judge j h with
    | .keep .servedByPlan => endServed j h .servedByPlan (some .servedByPlan) e1
    | .keep v => endServed j h .waiting (some v) e1
    | .early _ => endServed j h .waiting none e1
    | .extend n =>
      let bound := after pe n
      let e2 := modGrant j (fun g => { g with
        kind := .extend, windowStart := m.receipt - BitVec.ofNat 32 m.elapsed, bound := bound }) e1
      let margin := e.image.clearMargin
      let e3 := makeWaiting j (fun x => isRiding x && later (after x.eta margin) bound) e2
      review j (modJunction j (fun x => { x with state := .ordering }) (needOrder j (.extend g.busPhase n) true e3))

/-- What a mirror update does to an open grant before the grant tests (R124, R128, R129). -/
def mirrorGrant (j : JunctionNo) (m : Mirror) (e : Event) : Event :=
  match (e.junction j).grant with
  | none => e
  | some g =>
    if g.isOpen then
      match g.kind with
      | .early =>
        if m.green g.busPhase then completeEarly j g m e
        else if m.phase = g.busPhase then expireGrant j e
        else e
      | .extend => if m.green g.busPhase then e else expireGrant j e
    else e

/-! ### The evaluations of an event (R102) -/

/-- What a trigger starts at a junction, by its state (R102, R119): an evaluation, the grant tests, or nothing. -/
def settleJunction (j : JunctionNo) (e : Event) : Event :=
  let x := e.junction j
  if x.stale then e
  else
    match x.state with
    | .idle => if e.present j then evaluate j e else e
    | .ordering => grantTests j e
    | .inForce => grantTests j e
    | .awaitRuling => e
    | .recovery => e
    | .frozen => e

/-- The junctions an event's triggers have reached, from J0. -/
def triggeredJunctions (e : Event) : List JunctionNo := (List.finRange 4).filter fun j => e.triggered.get j

/-- One event gives one evaluation at each junction it triggers (R102). Where it triggers several, they are taken in the order of the next choice
(R149, log 5). -/
def settle (e : Event) : Event :=
  let js := triggeredJunctions e
  let e0 := { e with triggered := .replicate 4 false }
  let e1 :=
    if 2 ≤ js.length then
      let (order, e2) := takeOrder e0
      (order.filter fun j => js.contains j).foldl (fun e j => settleJunction j e) e2
    else js.foldl (fun e j => settleJunction j e) e0
  { e1 with triggered := .replicate 4 false }

end Sys2Proof.Machine
end

