-- ==== Sys2Proof/Machine/Prediction.lean ====
section
/-!
DEFINITION. Machine/Prediction.lean: the arithmetic of the Prediction Engine (Chapter 4). It holds no state.
-/
namespace Sys2Proof.Machine

/-- The length of a run of reaches: B_k is the length of reaches k to n − 1 (R70). -/
def runLength (rs : List ReachEntry) : Nat := (rs.map (·.length)).sum

/-- The boundary B_k of an approach's reaches in use (R70); 0 beyond them, so that a stop whose reach is no longer in use lies at 0 (log 22). -/
def boundary (rs : List ReachEntry) (k : Nat) : Nat := runLength (rs.drop k)

/-- The reach that holds a distance: the first whose downstream boundary is less than it (R70). -/
def reachAt (D : Nat) : List ReachEntry → Nat
  | [] => 0
  | [_] => 0
  | _ :: rest => if runLength rest < D then 0 else 1 + reachAt D rest

/-- The effective speed in a reach of cruise speed `v` (R75). -/
def effectiveSpeed (w s v : Nat) : Nat := clamp 10 250 ((w * s + (4 - w) * v) / 4)

/-- The time over a length at a speed, rounded up (R76). -/
def travelTime (length speed : Nat) : Nat := ceilDiv (100 * length) speed

/-- The travel times of whole reaches at their cruise speeds (R76). -/
def cruiseTime (rs : List ReachEntry) : Nat := (rs.map fun r => travelTime r.length r.cruise).sum

/-- What a prediction needs of the stops: the candidate distance, the last departed stop and the dwelling stop (R71). -/
structure StopFields where
  lastDeparted : Option Nat
  dwellStop : Option Nat
  stopArrive : Option Clock
  deriving DecidableEq, Repr, Inhabited

/-- Whether stop `k`, at distance B_{k+1}, is ahead of a bus at D (R71). -/
def stopAhead (rs : List ReachEntry) (lastDeparted : Option Nat) (D k : Nat) : Bool :=
  let b := boundary rs (k + 1)
  decide (b < D) || (b == D && lastDeparted != some k)

/-- The dwell a stop ahead contributes, in Δ and in the nominal time alike (R77, R82). -/
def plannedDwell (r : ReachEntry) : Nat :=
  match r.dwellMode with
  | .none => 0
  | .fixed => r.fixedDwell
  | .reported => r.fixedDwell
  | .timedThenReported => r.fixedDwell

/-- The dwell terms of the stops ahead that are not the dwelling stop (R71, R77). -/
def aheadDwell (rs : List ReachEntry) (f : StopFields) (D : Nat) : Nat :=
  ((List.range (rs.length - 1)).map fun k =>
    match rs[k]? with
    | none => 0
    | some r => if r.stop && stopAhead rs f.lastDeparted D k && f.dwellStop != some k then plannedDwell r else 0).sum

/-- The dwelling stop's term in Δ and the suspension verdict, by mode and elapsed dwell (R78). A stop whose mode has been written to
NONE meanwhile contributes nothing (R10). -/
def dwellTerm (mode : DwellMode) (f e : Nat) : Nat × Bool :=
  match mode with
  | .none => (0, false)
  | .fixed => (f - e, false)
  | .reported => (f, true)
  | .timedThenReported => (f - e, decide (f ≤ e))

/-- The times of one prediction. -/
structure Times where
  reach : Nat
  delta : Nat
  nominal : Nat
  suspended : Bool
  deriving DecidableEq, Repr, Inhabited

/-- Δ, the nominal time and the suspension verdict of a bus at `D` with speed `s` at report time `t` (R75–R82). `dwelling` is the reach
entry of the dwelling stop, and `remaining` the substituted remaining dwell of R87. -/
def predictTimes (rs : List ReachEntry) (trust : Nat) (f : StopFields) (dwelling : Option ReachEntry)
    (remaining : Option Nat) (D s : Nat) (t : Clock) : Times :=
  let k := reachAt D rs
  let cur := (rs[k]?).getD default
  let left := D - boundary rs (k + 1)
  let later := cruiseTime (rs.drop (k + 1))
  let ahead := aheadDwell rs f D
  let e := elapsed t (f.stopArrive.getD t)
  let term : Nat × Bool :=
    match dwelling with
    | none => (0, false)
    | some r =>
      match remaining with
      | some left => (left, false)
      | none => dwellTerm r.dwellMode r.fixedDwell e
  let nominalDwell := (dwelling.map plannedDwell).getD 0
  { reach := k
    delta := travelTime left (effectiveSpeed trust s cur.cruise) + later + ahead + term.1
    nominal := travelTime left cur.cruise + later + ahead + nominalDwell
    suspended := term.2 }

/-- The class of a lateness, tested in the order of R84. -/
def classify (img : Image) (L : Int) : LateClass :=
  if (img.severeThreshold : Int) ≤ L then .severe
  else if (img.lateThreshold : Int) ≤ L then .late
  else if L ≤ -(img.earlyThreshold : Int) then .early
  else .onTime

/-- A class's index in the CLASS table (R2). -/
def classIndex : LateClass → Fin 4
  | .severe => 0
  | .late => 1
  | .onTime => 2
  | .early => 3

/-- The tier: the lesser of the class tier and the group's ceiling (R85). -/
def assignTier (img : Image) (c : LateClass) (g : GroupNo) : Nat :=
  min (img.classes.get (classIndex c)) (img.groups.get g)

/-- A report's deviation in deciseconds (R44, R69). -/
def deviationDs (seconds : Int) : Int := clampDs (seconds * 10)

end Sys2Proof.Machine
end

