-- ==== Sys2Proof/Machine/Tracks.lean ====
section
/-!
DEFINITION. Machine/Tracks.lean: the work of the Track Manager (Chapter 3): predictions and the requests they decide, the states of a
track, allocation and replacement, write-back and its stall, hand-ons, expiries, and what AU returns (R154–R156).
-/
namespace Sys2Proof.Machine

/-! ### Outgoing hand-ons (R65) -/

/-- A hand-on handed to CP: its frame begins where none is in transmission; otherwise it waits, and it is dropped where 4 wait (R65). -/
def sendHandOn (h : OutHandOn) (e : Event) : Event :=
  match e.corridorFrame with
  | none => { e with corridorFrame := some h }
  | some _ => if e.corridorWaiting.length < 4 then { e with corridorWaiting := e.corridorWaiting ++ [h] } else e

/-! ### Requests after a prediction (R49) -/

/-- Whether a track asks for priority (R49). -/
def State.eligible (s : State) (t : Track) : Bool :=
  (t.state == .approaching || t.state == .dwelling) && (t.approach.map s.image.enabled).getD false && decide (1 ≤ t.tier) &&
    t.eta.isSome

/-- What TM posts for a track on an approach (R49, R91). -/
def postingOf (img : Image) (w : Way) (t : Track) (a : ApproachNo) (eta : Clock) (suspended : Bool) : Posting :=
  { vehicle := t.vehicle, way := w, approach := a, busPhase := (img.approach a).busPhase, tier := t.tier, cls := t.cls, eta := eta,
    suspended := suspended }

/-- TM decides a track's request (R49). A track whose referral is open posts nothing (R88). -/
def decideRequest (p : Place) (suspended : Bool) (e : Event) : Event :=
  match e.track p with
  | none => e
  | some t =>
    if e.eligible t then
      match t.approach, t.eta with
      | some a, some eta =>
        let x := postingOf e.image p.way t a eta suspended
        match t.listed with
        | some j => postRequest j x e
        | none =>
          match (e.image.approach a).junction with
          | some j => if t.referralOpen then e else postRequest j x e
          | none => e
      | _, _ => e
    else withdrawTrack p .withdrawn e

/-! ### Deadlines formed (R43) -/

/-- TM forms deadlines of some kinds for the track it works on (R43). -/
def formed (ks : List DeadlineKind) (e : Event) : Event := { e with formed := ks ++ e.formed }

/-! ### Predictions (R68–R86) -/

/-- Which of PE's checks a prediction makes: those of the classes after the one ruled on (R74). -/
inductive Stage where
  | all | afterDistance | afterReversal | afterHorizon
  deriving DecidableEq, Repr, Inhabited

/-- A prediction asked of PE: the track that stays if the report is held (`base`), the track the report makes (`made`), and the inputs of R69.
`forms` are the deadlines that the made track carries newly formed, and `keep` is what AU holds, given the candidate distance that the checks
leave. -/
structure Ask where
  place : Place
  approach : ApproachNo
  base : Track
  made : Track
  previous : Option Nat
  distance : Nat
  speed : Nat
  time : Clock
  remaining : Option Nat
  stage : Stage
  forms : List DeadlineKind
  keep : Nat → Held

/-- An anomaly of a track, as a block raises it (R147). -/
def trackAnomaly (q : Ask) (c : AnomalyClass) (f : Figures) (candidate : Nat) : Anomaly :=
  { cls := c, vehicle := q.made.vehicle, place := .approach q.approach, figures := f, held := q.keep candidate }

/-- TM marks a track as referred (R66): the report has not been acted on. -/
def holdTrack (p : Place) (base : Track) (e : Event) : Event :=
  markReferred p true (setTrack p (some { base with referralOpen := true, superseded := 0 }) e)

/-- The DISTANCE check (R72): the distance it leaves, or none where AU holds the report. -/
def checkDistance (q : Ask) (length : Nat) (e : Event) : Option Nat × Event :=
  if q.stage = .all ∧ length < q.distance then
    let r := raiseAnomaly (trackAnomaly q .distance (.distance q.distance length) q.distance) e
    (if r.1 then none else some length, r.2)
  else (some q.distance, e)

/-- The REVERSAL check (R73): the distance it leaves, or none where AU holds the report. -/
def checkReversal (q : Ask) (D : Nat) (e : Event) : Option Nat × Event :=
  match q.previous with
  | none => (some D, e)
  | some d =>
    if (q.stage = .all ∨ q.stage = .afterDistance) ∧ d + e.image.reversalTolerance < D then
      let r := raiseAnomaly (trackAnomaly q .reversal (.reversal D d e.image.reversalTolerance) D) e
      (if r.1 then none else some d, r.2)
    else (some D, e)

/-- The HORIZON check (R81): whether the ETA is present, or none where AU holds the report. A report returned from HORIZON completes with its
ETA absent (R154). -/
def checkHorizon (q : Ask) (D delta : Nat) (e : Event) : Option Bool × Event :=
  if q.stage = .afterHorizon then (some false, e)
  else if e.image.horizon < delta then
    let r := raiseAnomaly (trackAnomaly q .horizon (.horizon delta e.image.horizon) D) e
    (if r.1 then none else some false, r.2)
  else (some true, e)

/-- The times of a prediction at the distance its checks leave (R69–R82). A dwelling stop counts by its reach's mode while the reach is in use, whatever its
stop flag has become (log 22). -/
def askTimes (img : Image) (q : Ask) (D : Nat) : Times :=
  let rs := img.reachesInUse q.approach
  let f : StopFields :=
    { lastDeparted := q.made.lastDeparted, dwellStop := q.made.dwellStop, stopArrive := q.made.stopArrive }
  let dwelling := if q.made.state = .dwelling then q.made.dwellStop.bind fun k => rs[k]? else none
  predictTimes rs (img.approach q.approach).trust f dwelling q.remaining D q.speed q.time

/-- The results of a prediction written into the track (R86). -/
def writeResults (img : Image) (q : Ask) (D : Nat) (m : Times) (present : Bool) : Track :=
  let L := clampDs (q.made.deviation.getD 0 + m.delta - m.nominal)
  let c := classify img L
  let eta := if present then some (after q.time m.delta) else none
  { q.made with
    distance := D
    reach := ⟨m.reach % 8, Nat.mod_lt _ (by decide)⟩
    speed := q.speed
    reportTime := q.time
    eta := eta
    nominal := saturate 48000 m.nominal
    lateness := L
    cls := c
    tier := assignTier img c q.made.group
    lastEta := if present then eta else q.made.lastEta }

/-- The completion of a prediction whose distance checks no anomaly has held (R81–R86). -/
def completePrediction (q : Ask) (D : Nat) (e : Event) : Event :=
  let m := askTimes e.image q D
  match checkHorizon q D m.delta e with
  | (none, e1) => holdTrack q.place q.base e1
  | (some present, e1) =>
    decideRequest q.place m.suspended (formed q.forms (setTrack q.place (some (writeResults e.image q D m present)) e1))

/-- A prediction (R68, R74). The distance that reaches the time terms lies in 1 to B_0. -/
def predict (q : Ask) (e : Event) : Event :=
  let length := runLength (e.image.reachesInUse q.approach)
  match checkDistance q length e with
  | (none, e1) => holdTrack q.place q.base e1
  | (some D1, e1) =>
    match checkReversal q (clamp 1 length D1) e1 with
    | (none, e2) => holdTrack q.place q.base e2
    | (some D2, e2) => completePrediction q (clamp 1 length D2) e2

/-! ### What a report does to a track -/

/-- What AU keeps beside a report that is held at distance `x` (log 21): the distance, where the report came with a candidate or a default has changed its own `D`;
otherwise nothing, since the report's own distance is formed anew at the return (R74, R156). -/
def changedDistance (candidate : Option Nat) (D x : Nat) : Option Nat := if candidate = none ∧ x = D then none else some x

/-- The deviation a report carries, in seconds (R24). -/
def carriedDeviation : ReportBody → Option Int
  | .checkIn _ _ _ d => d
  | .position _ _ d => d
  | .stopArrive _ d => d
  | .stopDepart _ d => d
  | .passed => none
  | .checkOut => none

/-- The distance a report carries (R24); a report without one raises no DISTANCE (R72). -/
def carriedDistance : ReportBody → Nat
  | .checkIn _ D _ _ => D
  | .position D _ _ => D
  | .stopArrive _ _ => 0
  | .stopDepart _ _ => 0
  | .passed => 0
  | .checkOut => 0

/-- Last seen and the stale deadline of a report acted on (R44). -/
def refreshTrack (img : Image) (stamp : Clock) (t : Track) : Track :=
  { t with lastSeen := some stamp, staleDeadline := some (after stamp img.staleTime) }

/-- What every report acted on does: last seen, the stale deadline, and the deviation where it carries one (R44). -/
def seenTrack (img : Image) (r : Report) (t : Track) : Track :=
  { refreshTrack img r.stamp t with
    deviation := match carriedDeviation r.body with
      | none => t.deviation
      | some d => some (deviationDs d) }

/-- The fields the start of an approach sets, apart from the distance and speed (R52). -/
def startFields (a : ApproachNo) (t : Track) : Track :=
  { t with
    approach := some a
    state := .approaching
    lastDeparted := none
    dwellStop := none
    stopArrive := none
    dwellDeadline := none
    firstListed := none
    firstEta := none
    lastEta := none
    action := .none
    borrowed := 0
    lateness := t.deviation.getD 0
    cls := .onTime
    tier := 0
    eta := none
    expectDeadline := none }

/-- The pending journey record a track makes at passage (R60); none where its approach has no junction. -/
def journeyOf (img : Image) (t : Track) (pass : Clock) : Option Journey := do
  let a ← t.approach
  let j ← (img.approach a).junction
  return { vehicle := t.vehicle, route := t.route, junction := j, approach := a, firstListed := t.firstListed,
           firstEta := t.firstEta, lastEta := t.lastEta.getD pass, passTime := pass, action := t.action, borrowed := t.borrowed,
           cls := t.cls }

/-- The outgoing hand-on of a passage (R65). -/
def handOnOf (img : Image) (t : Track) (pass : Clock) : Option OutHandOn := do
  let a ← t.approach
  let target ← (img.approach a).exitTarget
  return { vehicle := t.vehicle, route := t.route, entry := target,
           deviation := clampDs (t.lateness + signedElapsed pass (t.lastEta.getD pass)) }

/-- The track after passage (R55). -/
def clearedTrack (img : Image) (t : Track) (pass : Clock) : Track :=
  { t with
    state := .cleared
    journey := journeyOf img t pass
    distance := 0
    eta := none
    dwellStop := none
    stopArrive := none
    dwellDeadline := none }

/-- Passage of a track that has already taken its report's last seen time (R55). -/
def passage (p : Place) (t : Track) (pass : Clock) (e : Event) : Event :=
  let e1 := withdrawTrack p .passed (formed [.stale] (setTrack p (some (clearedTrack e.image t pass)) e))
  match handOnOf e.image t pass with
  | none => e1
  | some h => sendHandOn h e1

/-! ### Invalidation and write-back (R56, R61) -/

/-- Steps 2 to 4 of an invalidation, once its record has been written back (R56). -/
def invalidateTail (p : Place) (why : LossCause) (e : Event) : Event :=
  match e.track p with
  | none => e
  | some t =>
    let e1 := withdrawTrack p (.lost why) e
    let e2 := if t.referralOpen then withdrawTrackReferral t.vehicle e1 else e1
    setTrack p none e2

/-- The record leaves its track. -/
def dropRecord (p : Place) (e : Event) : Event := modTrack p (fun t => { t with journey := none }) e

/-- Work on the track of a place that first writes its pending record back (R61): the notice is queued where there is room; otherwise TM stalls
with the work in hand, and the offer keeps the number it took (R177). -/
def withWriteBack (p : Place) (w : Work) (go : Event → Event) (e : Event) : Event :=
  match (e.track p).bind (·.journey) with
  | none => go e
  | some rec =>
    if e.noticeRoom then go (dropRecord p (offer (.journey rec) e))
    else
      { e with
        noticeCounter := e.noticeCounter + 1
        stall := some { place := p, work := w, limit := after e.clock 20, number := e.noticeCounter } }

/-- An invalidation (R56). -/
def invalidate (p : Place) (why : LossCause) (e : Event) : Event :=
  withWriteBack p (.invalidate why) (invalidateTail p why) e

/-! ### Acting on reports (R51–R55) -/

/-- The start of an approach by a CHECK-IN on a track already written back (R52): a passage with D = 0, and otherwise the first prediction of the
approach. `fresh` says that the track was allocated for it (R66, R150). The lateness takes the deviation the CHECK-IN carries (log 50). -/
def startApproach (p : Place) (r : Report) (fresh : Bool) (e : Event) : Event :=
  match r.body, e.track p with
  | .checkIn _ D s _, some t =>
    let length := runLength (e.image.reachesInUse r.approach)
    let begun := refreshTrack e.image r.stamp (startFields r.approach t)
    let base := if fresh then { begun with distance := length, speed := 0, reach := 0, reportTime := r.stamp } else begun
    let made := { startFields r.approach (seenTrack e.image r t) with distance := D, speed := s }
    if D = 0 then passage p made r.stamp e
    else
      predict { place := p, approach := r.approach, base := base, made := made, previous := none, distance := D, speed := s,
                time := r.stamp, remaining := none, stage := .all, forms := [],
                keep := fun x => .report r true (changedDistance none D x) } (formed [.stale] e)
  | _, _ => e

/-- The fields a departure from stop `k` sets (R54). -/
def departFields (k : Nat) (t : Track) : Track :=
  { t with state := .approaching, lastDeparted := some k, dwellStop := none, stopArrive := none, dwellDeadline := none }

/-- The fields an arrival at stop `k` sets (R54). In DWELLING at another stop, the last departed stop takes the old one. -/
def arriveFields (img : Image) (k : Nat) (stamp : Clock) (t : Track) : Track :=
  { t with
    state := .dwelling
    lastDeparted := if t.state = .dwelling then t.dwellStop else t.lastDeparted
    dwellStop := some k
    stopArrive := some stamp
    dwellDeadline := some (after stamp img.dwellCap) }

/-- How a report that is acted on comes to be: taken from a slot, or returned by AU with the checks that are left, the candidate distance that
stands in for its own, and whether it is the first of its approach (R74, R155, R156). -/
structure Manner where
  stage : Stage
  candidate : Option Nat
  first : Bool
  deriving DecidableEq, Repr, Inhabited

/-- A report taken from a slot. -/
def taken : Manner := { stage := .all, candidate := none, first := false }

/-- A prediction for a report on a track already on its approach (R68), at the report's own distance or at its candidate. Where AU holds it at its own distance, that
distance is formed anew at the return (R74). -/
def predictReport (p : Place) (r : Report) (m : Manner) (a : ApproachNo) (t made : Track) (D s : Nat) (forms : List DeadlineKind)
    (e : Event) : Event :=
  predict { place := p, approach := a, base := t, made := made, previous := if m.first then none else some t.distance,
            distance := m.candidate.getD D, speed := s, time := r.stamp, remaining := none, stage := m.stage, forms := forms,
            keep := fun x => .report r m.first (changedDistance m.candidate D x) } e

/-- A POSITION, or a CHECK-IN on the track's own approach, in APPROACHING or DWELLING (R51). A POSITION short of the dwelling stop departs from it
first. -/
def actPosition (p : Place) (r : Report) (m : Manner) (a : ApproachNo) (t : Track) (D s : Nat) (e : Event) : Event :=
  let seen := seenTrack e.image r t
  if D = 0 then passage p seen r.stamp e
  else
    let made := match t.state, t.dwellStop with
      | .dwelling, some k =>
        if D < boundary (e.image.reachesInUse a) (k + 1) then departFields k seen else seen
      | _, _ => seen
    predictReport p r m a t made D s [.stale] e

/-- A report acted on by a track that is past its stop line, other than a CHECK-IN or a CHECK-OUT (R51). -/
def actRefresh (p : Place) (r : Report) (t : Track) (e : Event) : Event :=
  formed [.stale] (setTrack p (some (refreshTrack e.image r.stamp t)) e)

/-- STOP ARRIVE (R54). -/
def actArrive (p : Place) (r : Report) (m : Manner) (a : ApproachNo) (t : Track) (k : Nat) (e : Event) : Event :=
  if t.state = .dwelling ∧ t.dwellStop = some k then actRefresh p r t e
  else
    predictReport p r m a t (arriveFields e.image k r.stamp (seenTrack e.image r t))
      (boundary (e.image.reachesInUse a) (k + 1)) 0 [.stale, .dwell] e

/-- STOP DEPART (R54). -/
def actDepart (p : Place) (r : Report) (m : Manner) (a : ApproachNo) (t : Track) (k : Nat) (e : Event) : Event :=
  predictReport p r m a t (departFields k (seenTrack e.image r t)) (boundary (e.image.reachesInUse a) (k + 1)) 0 [.stale] e

/-- A CHECK-IN on a track of the table (R51–R53). -/
def actCheckIn (p : Place) (r : Report) (m : Manner) (t : Track) (D s : Nat) (e : Event) : Event :=
  match t.state with
  | .expected => startApproach p r false e
  | .cleared => withWriteBack p (.startApproach r) (startApproach p r false) e
  | .approaching =>
    if t.approach = some r.approach then actPosition p r m r.approach t D s e
    else startApproach p r false (withdrawTrack p (.lost .moved) e)
  | .dwelling =>
    if t.approach = some r.approach then actPosition p r m r.approach t D s e
    else startApproach p r false (withdrawTrack p (.lost .moved) e)

/-- A report that passed screening acts on a track that is on its approach (R51, the columns APPROACHING and DWELLING). -/
def actRunning (p : Place) (r : Report) (m : Manner) (a : ApproachNo) (t : Track) (e : Event) : Event :=
  match r.body with
  | .checkIn _ D s _ => actCheckIn p r m t D s e
  | .position D s _ => actPosition p r m a t D s e
  | .stopArrive k _ => actArrive p r m a t k e
  | .stopDepart k _ => actDepart p r m a t k e
  | .passed => passage p (seenTrack e.image r t) r.stamp e
  | .checkOut => invalidate p .checkedOut (actRefresh p r t e)

/-- A report that passed screening acts on a track past its stop line (R51, the column CLEARED). -/
def actCleared (p : Place) (r : Report) (m : Manner) (t : Track) (e : Event) : Event :=
  match r.body with
  | .checkIn _ D s _ => actCheckIn p r m t D s e
  | .position _ _ _ => actRefresh p r t e
  | .stopArrive _ _ => actRefresh p r t e
  | .stopDepart _ _ => actRefresh p r t e
  | .passed => actRefresh p r t e
  | .checkOut => invalidate p .checkedOut (actRefresh p r t e)

/-- A report that passed screening acts on an EXPECTED track (R51, the column EXPECTED). -/
def actExpected (p : Place) (r : Report) (m : Manner) (t : Track) (e : Event) : Event :=
  match r.body with
  | .checkIn _ D s _ => actCheckIn p r m t D s e
  | .position _ _ _ => e
  | .stopArrive _ _ => e
  | .stopDepart _ _ => e
  | .passed => e
  | .checkOut => invalidate p .checkedOut e

/-- A report that passed screening acts on the track of its place (R51). -/
def actReport (p : Place) (r : Report) (m : Manner) (e : Event) : Event :=
  match e.track p with
  | none => e
  | some t =>
    match t.state, t.approach with
    | .expected, _ => actExpected p r m t e
    | .cleared, _ => actCleared p r m t e
    | .approaching, some a => actRunning p r m a t e
    | .dwelling, some a => actRunning p r m a t e
    | .approaching, none => e
    | .dwelling, none => e

/-! ### Allocation (R45–R47, R64) -/

/-- The way an allocation takes (R45). -/
def chooseWay (x : TrackSet) : Way :=
  match x.a, x.b with
  | none, _ => .a
  | some _, none => .b
  | some ta, some tb =>
    match ta.pinned, tb.pinned with
    | true, false => .b
    | false, true => .a
    | true, true => .b
    | false, false => x.age

/-- The place an allocation takes for a vehicle (R45). -/
def State.allocationPlace (s : State) (vehicle : Nat) : Place :=
  placeOf vehicle (chooseWay (s.sets.get (placeOf vehicle .a).set))

/-- The other way of a set. -/
def otherWay : Way → Way
  | .a => .b
  | .b => .a

/-- TM complements the age bit of a set at an allocation into it (R41). -/
def complementAge (k : SetNo) (e : Event) : Event :=
  let x := e.sets.get k
  { e with sets := e.sets.set k { x with age := otherWay x.age } }

def freeClass (n : Nat) : LateClass :=
  match n % 4 with
  | 0 => .severe
  | 1 => .late
  | 2 => .onTime
  | _ => .early

def freeAction (n : Nat) : Action :=
  match n % 5 with
  | 0 => .none
  | 1 => .extend
  | 2 => .early
  | 3 => .earlyExtend
  | _ => .ride

/-- A new track: the fields R47 and R64 give an allocation, and free values, in their ranges, in the fields to which no rule gives a value at it
(log 7). -/
def newTrack (vehicle route : Nat) (group : GroupNo) (state : TrackState) (deviation : Option Int) (expect : Option Clock)
    (free : Nat → Nat) : Track :=
  { vehicle := vehicle, route := route, group := group, state := state, approach := none
    reach := ⟨free 0 % 8, Nat.mod_lt _ (by decide)⟩
    distance := free 1 % 16001
    speed := free 2 % 256
    reportTime := BitVec.ofNat 32 (free 3)
    lastSeen := none, deviation := deviation, stopArrive := none, dwellStop := none, lastDeparted := none, eta := none
    nominal := free 4 % 48001
    lateness := (free 5 % 9001 : Nat) - 3000
    cls := freeClass (free 6)
    tier := free 7 % 4
    pinned := false, listed := none, firstListed := none, firstEta := none, lastEta := none
    action := freeAction (free 8)
    borrowed := free 9 % 12001
    journey := none, expectDeadline := expect, referralOpen := false, superseded := 0, staleDeadline := none,
    dwellDeadline := none }

/-- An allocation into a place whose record, if any, has been written back (R45): the victim is invalidated with cause EVICTED, the way is written
and the age bit complemented. -/
def allocate (p : Place) (make : (Nat → Nat) → Track) (e : Event) : Event :=
  let e1 := invalidateTail p .evicted e
  let t := make fun i => Config.freeNat (e1.freeIndex + i)
  complementAge p.set (setTrack p (some t) { e1 with freeIndex := e1.freeIndex + 10 })

/-- The allocation of a CHECK-IN whose route has a group, and the report's start of its approach (R47). -/
def allocateReport (p : Place) (r : Report) (g : GroupNo) (e : Event) : Event :=
  match r.body with
  | .checkIn route _ _ dev =>
    startApproach p r true
      (allocate p (newTrack r.vehicle route g .approaching (dev.map deviationDs) none) e)
  | _ => e

/-- The allocation of a hand-on (R64 step 3). -/
def allocateHandOn (p : Place) (h : HandOn) (g : GroupNo) (link : Nat) (e : Event) : Event :=
  formed [.expect] (allocate p (newTrack h.vehicle h.route g .expected (some h.deviation)
    (some (after h.stamp (link + e.image.expectMargin)))) e)

/-- A CHECK-IN whose route is placed allocates a track, writing a victim's record back first (R45, R47). -/
def placeReport (r : Report) (g : GroupNo) (e : Event) : Event :=
  let p := e.allocationPlace r.vehicle
  withWriteBack p (.allocateReport r g) (allocateReport p r g) e

/-! ### Expiries (R57–R59) -/

/-- A dwell that ends by default: TM acts as on a STOP DEPART naming the dwelling stop, with the stamp given; a prediction after it may raise
HORIZON (R59, R87, R154). Where AU holds it for that, it holds this made-up STOP DEPART, and the track stays DWELLING (log 51). -/
def departByDefault (p : Place) (stamp : Clock) (e : Event) : Event :=
  match e.track p with
  | none => e
  | some t =>
    match t.approach, t.dwellStop with
    | some a, some k =>
      actReport p { vehicle := t.vehicle, approach := a, body := .stopDepart k none, stamp := stamp }
        { stage := .afterReversal, candidate := none, first := false } e
    | _, _ => e

/-- The expiry of a dwell deadline, at a clock value (R59). -/
def expireDwell (p : Place) (time : Clock) (e : Event) : Event :=
  match e.track p with
  | none => e
  | some t =>
    match t.approach, t.dwellStop, t.stopArrive with
    | some a, some k, some arrived =>
      let t0 := { t with dwellDeadline := none }
      let e0 := setTrack p (some t0) e
      let (held, e1) := raiseAnomaly
        { cls := .dwell, vehicle := t.vehicle, place := .approach a, figures := .dwell k arrived e.image.dwellCap, held := .dwell } e0
      if held then holdTrack p t0 e1 else departByDefault p time e1
    | _, _, _ => setTrack p (some { t with dwellDeadline := none }) e

/-- The expiry of a deadline of a track, at a clock value (R57, R58, R59). -/
def expireTrack (k : DeadlineKind) (p : Place) (time : Clock) (e : Event) : Event :=
  match k with
  | .stale => invalidate p .stale e
  | .expect => invalidateTail p .stale e
  | .dwell => expireDwell p time e

/-- A track's deadline of a kind. -/
def Track.deadline (k : DeadlineKind) (t : Track) : Option Clock :=
  match k with
  | .stale => t.staleDeadline
  | .expect => t.expectDeadline
  | .dwell => t.dwellDeadline

/-- The deadline of a kind that the work in hand has formed, where it is not later than the clock (R43). -/
def formedDue (k : DeadlineKind) (t : Track) (e : Event) : Option Clock :=
  if e.formed.contains k then (t.deadline k).filter fun d => e.due (some d) else none

/-- The expiry of a deadline that the work of an event formed not later than the clock, where the track still has it (R43). -/
def expireFormed (k : DeadlineKind) (p : Place) (d : Option Clock) (e : Event) : Event :=
  match d, e.track p with
  | some d, some t => if e.stall.isNone ∧ t.deadline k = some d then expireTrack k p e.clock e else e
  | _, _ => e

/-- Whenever TM forms a deadline that is not later than the clock, the expiry is taken at once (R43): the earlier deadline first. -/
def takeOverdue (p : Place) (e : Event) : Event :=
  match e.track p with
  | none => e
  | some t =>
    let stale := formedDue .stale t e
    let dwell := formedDue .dwell t e
    let e1 := expireFormed .expect p (formedDue .expect t e) e
    let dwellFirst := match stale, dwell with
      | some s, some d => earlier d s
      | _, _ => false
    if dwellFirst then expireFormed .stale p stale (expireFormed .dwell p dwell e1)
    else expireFormed .dwell p dwell (expireFormed .stale p stale e1)

/-- Work of TM on the track of a place, with the deadlines it forms in the past taken at once. -/
def workOn (p : Place) (go : Event → Event) (e : Event) : Event := takeOverdue p (go { e with formed := [] })

/-! ### Screening (R44) and hand-ons (R64) -/

/-- A CHECK-IN that misses (R47, R152). -/
def missCheckIn (r : Report) (route : Nat) (e : Event) : Event :=
  match e.image.placeRoute route with
  | some g => workOn (e.allocationPlace r.vehicle) (placeReport r g) e
  | none =>
    match e.referral.filter fun f => f.cls == .unplaced && f.vehicle == r.vehicle with
    | some f => { e with referral := some { f with superseded := saturate 255 (f.superseded + 1) } }
    | none =>
      (raiseAnomaly { cls := .unplaced, vehicle := r.vehicle, place := .approach r.approach, figures := .unplaced route,
                      held := .report r true none } e).2

/-- Whether a report's kind binds it to the approach of its track (R44 test 5). -/
def bindsApproach : ReportBody → Bool
  | .checkIn _ _ _ _ => false
  | .position _ _ _ => true
  | .stopArrive _ _ => true
  | .stopDepart _ _ => true
  | .passed => true
  | .checkOut => false

/-- The stop a report names. -/
def namedStop : ReportBody → Option Nat
  | .stopArrive k _ => some k
  | .stopDepart k _ => some k
  | .checkIn _ _ _ _ => none
  | .position _ _ _ => none
  | .passed => none
  | .checkOut => none

/-- Whether a stop report may be acted on: it names a stop of the approach whose dwell mode is not NONE (R10, R44 test 6). -/
def Image.servedStop (img : Image) (a : ApproachNo) (k : Nat) : Bool :=
  img.isStop a k && (((img.reachesInUse a)[k]?).map fun r => r.dwellMode != .none).getD false

/-- Whether the screening tests 4 to 6 pass for a report on a track (R44). -/
def passesScreening (img : Image) (t : Track) (r : Report) : Bool :=
  !((t.lastSeen.map (earlier r.stamp)).getD false) &&
    !(bindsApproach r.body && t.approach != some r.approach) &&
    ((namedStop r.body).map (img.servedStop r.approach)).getD true

/-- The screening of a report on a track of the table (R44 tests 3 to 6). -/
def screenHit (p : Place) (t : Track) (r : Report) (e : Event) : Event :=
  if t.referralOpen then setTrack p (some { t with superseded := saturate 255 (t.superseded + 1) }) e
  else if passesScreening e.image t r then workOn p (actReport p r taken) e
  else e

/-- TM screens a report it has taken (R44). -/
def screenReport (r : Report) (e : Event) : Event :=
  if e.image.enabled r.approach then
    match e.lookup r.vehicle with
    | some p =>
      match e.track p with
      | some t => screenHit p t r e
      | none => e
    | none =>
      match r.body with
      | .checkIn route _ _ _ => missCheckIn r route e
      | _ => e
  else e

/-- TM handles a hand-on it has taken (R64). -/
def handleHandOn (h : HandOn) (e : Event) : Event :=
  let entry := e.image.entries.get h.entry
  if entry.approach.isNone then e
  else
    match e.lookup h.vehicle with
    | some p =>
      let deadline := after h.stamp (entry.linkTime + e.image.expectMargin)
      workOn p (fun e =>
        match e.track p with
        | none => e
        | some t =>
          if t.state = .expected then
            formed [.expect] (setTrack p (some { t with deviation := some h.deviation, expectDeadline := some deadline }) e)
          else setTrack p (some { t with deviation := some h.deviation }) e) e
    | none =>
      match e.image.placeRoute h.route with
      | none => e
      | some g =>
        let p := e.allocationPlace h.vehicle
        workOn p (withWriteBack p (.allocateHandOn h g entry.linkTime) (allocateHandOn p h g entry.linkTime)) e

/-! ### Returns from AU (R153–R156) -/

/-- A report with a substituted distance (R155): a reported distance is replaced; a stop report keeps its stop. Held again for a later class, it is held
and shown so (log 21). -/
def substituteDistance (v : Nat) (r : Report) : Report :=
  match r.body with
  | .checkIn route _ s d => { r with body := .checkIn route v s d }
  | .position _ s d => { r with body := .position v s d }
  | .stopArrive _ _ => r
  | .stopDepart _ _ => r
  | .passed => r
  | .checkOut => r

/-- The prediction of a CHECK-IN that was held as the first report of its approach (R156 step 3): no previous distance exists. -/
def actFirst (p : Place) (r : Report) (m : Manner) (t : Track) (e : Event) : Event :=
  match r.body with
  | .checkIn _ D s _ => predictReport p r m r.approach t (seenTrack e.image r t) D s [.stale] e
  | _ => e

/-- A held report acts at its return (R156 steps 3 and 4). -/
def actReturned (p : Place) (r : Report) (m : Manner) (t : Track) (e : Event) : Event :=
  if m.first then actFirst p r m t e else actReport p r m e

/-- A report returned to a track, with referral open already set to no (R154–R156). One returned with a substituted distance, if it is held again for a
later class, is held and shown with that distance (log 21). -/
def returnReport (p : Place) (cls : AnomalyClass) (d : Disposal) (r : Report) (first : Bool) (candidate : Option Nat)
    (t : Track) (e : Event) : Event :=
  let act (stage : Stage) (D : Option Nat) (r : Report) : Event :=
    actReturned p r { stage := stage, candidate := D, first := first } t e
  match d with
  | .discard => e
  | .substitute v =>
    let stage := if cls = .distance then Stage.afterDistance else Stage.afterReversal
    if v = 0 then passage p (seenTrack e.image r t) r.stamp e else act stage (some v) (substituteDistance v r)
  | .default =>
    match cls with
    | .distance => act .afterDistance (some (min (carriedDistance r.body) (runLength (e.image.reachesInUse r.approach)))) r
    | .reversal => act .afterReversal (some t.distance) r
    | _ => act .afterHorizon candidate r

/-- The prediction of a dwell returned with a remaining dwell (R87). -/
def predictDwell (p : Place) (remaining : Nat) (stage : Stage) (t : Track) (e : Event) : Event :=
  match t.approach with
  | none => e
  | some a =>
    predict { place := p, approach := a, base := t, made := t, previous := none, distance := t.distance, speed := t.speed,
              time := e.clock, remaining := some remaining, stage := stage, forms := [], keep := fun _ => .redwell remaining } e

/-- A dwell returned to its track (R87, R154, R155). -/
def returnDwell (p : Place) (d : Disposal) (opening : Clock) (t : Track) (e : Event) : Event :=
  match d with
  | .discard => e
  | .default => departByDefault p opening e
  | .substitute r =>
    if t.state = .dwelling then
      let t1 := { t with dwellDeadline := some (after e.clock e.image.dwellCap) }
      predictDwell p r .afterReversal t1 (formed [.dwell] (setTrack p (some t1) e))
    else e

/-- What AU held for a track acts on it. Whether a report's approach has been disabled is read at the return, from the enable as it then stands (R156 step 2,
log 54). -/
def returnToTrack (p : Place) (m : Return) (t : Track) (e : Event) : Event :=
  match m.referral.held with
  | .report r first candidate =>
    if e.image.enabled r.approach then returnReport p m.referral.cls m.disposal r first candidate t e else e
  | .dwell => returnDwell p m.disposal m.referral.opening t e
  | .redwell remaining =>
    match m.disposal with
    | .default => predictDwell p remaining .afterHorizon t e
    | .discard => e
    | .substitute _ => e
  | .conflict _ _ => e

/-- A report returned with a group for its unplaced route (R155, R156): it allocates, or acts on the track the vehicle has gained. Its approach's enable is the one
that stands at the return (log 54). -/
def returnUnplaced (r : Report) (group : Nat) (e : Event) : Event :=
  if e.image.enabled r.approach then
    match e.lookup r.vehicle with
    | some p => workOn p (actReport p r taken) e
    | none =>
      match numbered 8 group with
      | some g => workOn (e.allocationPlace r.vehicle) (placeReport r g) e
      | none => e
  else e

/-- TM takes a report or a dwell that AU returns, while it is not stalled (R66, R156): referral open becomes no, the request is reviewed with
referred no, and the matter acts. A matter returned to a track whose referral is not open is dropped (log 52). -/
def handleReturn (m : Return) (e : Event) : Event :=
  match m.referral.cls, m.disposal, m.referral.held with
  | .unplaced, .substitute g, .report r _ _ => returnUnplaced r g e
  | .unplaced, _, _ => e
  | _, _, _ =>
    match e.lookup m.referral.vehicle with
    | none => e
    | some p =>
      match e.track p with
      | none => e
      | some t =>
        if t.referralOpen then
          workOn p (fun e =>
            let t1 := { t with referralOpen := false }
            returnToTrack p m t1 (markReferred p false (setTrack p (some t1) e))) e
        else e

/-! ### Stalls and what waits on them (R43, R61) -/

/-- A matter returned to TM: it waits while TM is stalled (R43, R157). -/
def giveReturn (m : Return) (e : Event) : Event :=
  if e.stall.isSome then { e with waiting := e.waiting ++ [.returned m] } else handleReturn m e

/-- An expiry that waited: it has no effect where its track has been invalidated or its deadline replaced (R43). -/
def handleWaiting (w : Waiting) (e : Event) : Event :=
  match w with
  | .returned m => handleReturn m e
  | .expiry k p vehicle deadline time =>
    match e.track p with
    | none => e
    | some t => if t.vehicle = vehicle ∧ t.deadline k = some deadline then workOn p (expireTrack k p time) e else e

/-- The expiries and returns that waited, in the order they fell due, until one of them stalls TM again (R43, R61). -/
def drainWaiting : List Waiting → Event → Event
  | [], e => e
  | w :: ws, e =>
    let e1 := handleWaiting w e
    if e1.stall.isSome then { e1 with waiting := ws ++ e1.waiting } else drainWaiting ws e1

/-- The work in hand of a stall, once its record has left the track (R61). -/
def finishWork (p : Place) (w : Work) (e : Event) : Event :=
  match w with
  | .invalidate why => invalidateTail p why e
  | .allocateReport r g => workOn p (allocateReport p r g) e
  | .allocateHandOn h g link => workOn p (allocateHandOn p h g link) e
  | .startApproach r => workOn p (startApproach p r false) e

/-- The end of a stall, its notice queued or lost: the record leaves the track, TM completes its work in hand and handles what waited (R61). -/
def endStall (x : Stall) (e : Event) : Event :=
  let e1 := finishWork x.place x.work (dropRecord x.place { e with stall := none, waiting := [] })
  if e1.stall.isSome then { e1 with waiting := e.waiting ++ e1.waiting } else drainWaiting e.waiting e1

/-- A stalled JOURNEY notice is queued where there is room, with the number its offer took, and the stall ends (R61, R177). -/
def claimRoom (e : Event) : Event :=
  match e.stall with
  | none => e
  | some x =>
    if e.noticeRoom then
      match (e.track x.place).bind (·.journey) with
      | none => endStall x e
      | some rec => endStall x { e with noticeQueue := e.noticeQueue ++ [{ number := x.number, body := .journey rec }] }
    else e

/-- Room made in the notice queue while TM is stalled (R62): TM claims it, or, where the next choice lets the other blocks' notices of the same moment go
first, what they leave of it is TM's when the moment ends (log 5). -/
def takeRoom (e : Event) : Event :=
  if e.stall.isSome && e.noticeRoom then
    let claim := takeClaim e
    if claim.1 then claimRoom claim.2 else claim.2
  else e

/-- The expiry of a track's deadline (R43): it waits while TM is stalled. -/
def fallDue (k : DeadlineKind) (p : Place) (e : Event) : Event :=
  match e.track p with
  | none => e
  | some t =>
    match t.deadline k with
    | none => e
    | some d =>
      if e.due (some d) then
        if e.stall.isSome then
          let again := e.waiting.any fun w => match w with
            | .expiry k' p' v' d' _ => k' == k && p' == p && v' == t.vehicle && d' == d
            | .returned _ => false
          if again then e else { e with waiting := e.waiting ++ [.expiry k p t.vehicle d e.clock] }
        else workOn p (expireTrack k p e.clock) e
      else e

end Sys2Proof.Machine
end

