-- ==== Sys2Proof/Machine/Link.lean ====
section
/-!
DEFINITION. Machine/Link.lean: the supervisor's transmitter (R178, R179), the end of an event, and the handling of a supervisor request
(R169–R171).
-/
namespace Sys2Proof.Machine

/-! ### The transmitter (R179) -/

/-- The transmitter begins a frame. -/
def beginFrame (f : SupervisorFrame) (e : Event) : Event := { e with supervisorFrame := some f }

/-- The idle transmitter begins its next frame: the reply whose request arrived first, or else the head notice, which leaves the queue at
this event (R178, R179). The room goes to a stalled JOURNEY notice (R61). -/
def beginSupervisor (e : Event) : Event :=
  match e.supervisorFrame with
  | some _ => e
  | none =>
    match e.replySlot.filter fun r => r.ahead == 0 || e.busyList.isEmpty, e.busyList with
    | some r, _ => beginFrame (.reply r.reply) { e with replySlot := none }
    | none, b :: rest =>
      beginFrame (.busy b)
        { e with busyList := rest, replySlot := e.replySlot.map fun r => { r with ahead := r.ahead - 1 } }
    | none, [] =>
      match e.noticeQueue with
      | [] => e
      | n :: rest => takeRoom (beginFrame (.notice n) { e with noticeQueue := rest })

/-- The end of an event: the evaluations its triggers bring, the next frame of the supervisor's transmitter, what the room it makes brings,
and the orders sent. -/
def finish (e : Event) : State := transmitOrders (settle (beginSupervisor (settle e)))

/-- One event of the unit. -/
def event (f : Event → Event) (s : State) : State := finish (f (startEvent s))

/-! ### Receivers (R186) -/

/-- A receiver's condition. -/
def Receivers.at (r : Receivers) : Port → Option Clock
  | .supervisor => r.supervisor
  | .radio => r.radio
  | .signal => r.signal
  | .corridor => r.corridor

def Receivers.put (r : Receivers) (p : Port) (x : Option Clock) : Receivers :=
  match p with
  | .supervisor => { r with supervisor := x }
  | .radio => { r with radio := x }
  | .signal => { r with signal := x }
  | .corridor => { r with corridor := x }

/-- A port's receiver returns to hunting: its frame is complete (R186). -/
def State.hunt (s : State) (p : Port) : State := { s with receivers := s.receivers.put p none }

/-- A port's receiver is in frame, behind a marker that arrived some ds ago (R186). -/
def State.inFrame (s : State) (p : Port) (age : Nat) : State :=
  { s with receivers := s.receivers.put p (some (s.clock - BitVec.ofNat 32 age)) }

/-! ### Requests (R169–R171) -/

/-- What the owning block answers: the result, the body of the reply as the state stands after the request's event, and the event. -/
structure Answer where
  result : Result
  body : State → ReplyBody
  after : Event

/-- A refusal changes nothing (R169). -/
def refuse (r : Result) (e : Event) : Answer := { result := r, body := fun _ => .empty, after := e }

/-- An OK whose body is known when the request has acted. -/
def accept (b : ReplyBody) (e : Event) : Answer := { result := .ok, body := fun _ => b, after := e }

/-- A request that arrives while another is in progress is answered BUSY, or discarded where four answers wait (R170). -/
def answerBusy (kind number : Byte) (e : Event) : Event :=
  if e.busyList.length < 4 then { e with busyList := e.busyList ++ [{ kind := kind, number := number }] } else e

/-- The body of an answer: a refusal carries none (R188). -/
def Answer.bodyAt (a : Answer) (s : State) : ReplyBody :=
  if a.result = .ok ∨ a.result = .okDeferred then a.body s else .empty

/-- The reply is placed in the reply slot, with the marker set (R170, R171). -/
def placeReply (kind number : Byte) (a : Answer) (e : Event) : Event :=
  { e with
    marker := true
    replySlot := some { reply := { kind := kind, number := number, result := a.result, body := a.bodyAt e.toState },
                        ahead := e.busyList.length } }

/-- SP takes a request whose frame is complete (R169–R171): BUSY while another is in progress, MALFORMED where its body does not fit its
kind, and otherwise handled by its owner at this event. -/
def request {α : Type} (kind : Byte) (r : Request α) (handle : α → Event → Answer) (s : State) : State :=
  let e := startEvent (s.hunt .supervisor)
  if s.marker then finish (answerBusy kind r.number e)
  else
    let a := match r.body with
      | none => refuse .malformed e
      | some b => handle b e
    finish (placeReply kind r.number a (settle a.after))

end Sys2Proof.Machine
end

