-- ==== Sys2Proof/Machine/Operands.lean ====
section
/-!
DEFINITION. Machine/Operands.lean: the operand forms of the commands: coded fields, indices and the clamps of written values (R5–R19, R189),
and the numbers a record carries.
-/
namespace Sys2Proof.Machine

/-! ### Coded fields (R189) -/

/-- A switch, or a field whose values are yes and no. -/
def switchOf : Nat → Option Bool
  | 0 => some false
  | 1 => some true
  | _ => none

/-- A number of one of `n + 1` numbered things, clamped to their range (R19 step 3, log 20). -/
def clampNumber (n v : Nat) : Fin (n + 1) := ⟨min v n, by omega⟩

/-- An optional number of one of `n + 1` numbered things, clamped where it is present (R19 step 3). -/
def optionalNumber (n : Nat) (f : OptionalField) : Option (Fin (n + 1)) :=
  if f.presence = 1 then some (clampNumber n f.value) else none

/-- Whether an optional field's presence marker is present or absent (R169 step 3, R187). -/
def presenceMarked (f : OptionalField) : Bool := f.presence == 0 || f.presence == 1

def gateModeOf : Nat → Option GateMode
  | 0 => some .uniform
  | 1 => some .split
  | _ => none

def dwellModeOf : Nat → Option DwellMode
  | 0 => some .none
  | 1 => some .fixed
  | 2 => some .reported
  | 3 => some .timedThenReported
  | _ => none

def faultKindOf : Nat → Option FaultKind
  | 0 => some .refused
  | 1 => some .noAck
  | 2 => some .badAck
  | _ => none

def anomalyClassOf : Nat → Option AnomalyClass
  | 0 => some .distance
  | 1 => some .reversal
  | 2 => some .horizon
  | 3 => some .dwell
  | 4 => some .conflict
  | 5 => some .unplaced
  | _ => none

/-- The rulings (R153), by their codes (R189). -/
inductive RulingCode where
  | default | discard | substitute
  deriving DecidableEq, Repr, Inhabited

def rulingOf : Nat → Option RulingCode
  | 0 => some .default
  | 1 => some .discard
  | 2 => some .substitute
  | _ => none

/-- A group of switches as carried: none where one of them is neither on nor off. -/
def switchesOf : List Nat → Option (List Bool)
  | [] => some []
  | x :: xs => do
    let b ← switchOf x
    let bs ← switchesOf xs
    return b :: bs

/-- A group of `n` switches as held. -/
def switchVector (n : Nat) (l : List Bool) : Vector Bool n := .ofFn fun i => (l[i.val]?).getD false

/-- A group of `n` switches: none where one of them is neither on nor off. -/
def switchGroup (n : Nat) (l : List Nat) : Option (Vector Bool n) := (switchesOf l).map (switchVector n)

/-! ### The numbers of records (R24, R25, R63) -/

/-- A valid vehicle number (§7.3). -/
def validVehicle (v : Nat) : Bool := decide (1 ≤ v) && decide (v ≤ 65534)

/-- A valid route number (§7.3). -/
def validRoute (r : Nat) : Bool := decide (1 ≤ r) && decide (r ≤ 4095)

/-- The checks of R25 on a report's own fields, apart from its vehicle and approach. -/
def validBody : ReportBody → Bool
  | .checkIn route _ _ _ => validRoute route
  | .position _ _ _ => true
  | .stopArrive k _ => decide (k ≤ 7)
  | .stopDepart k _ => decide (k ≤ 7)
  | .passed => true
  | .checkOut => true

/-- The intake checks of a radio report (R25): the report with its stamp, or none where it is discarded. -/
def intakeReport (f : RadioFrame) (stamp : Clock) : Option Report :=
  match f with
  | .unfit _ => none
  | .misfit => none
  | .unknownKind _ => none
  | .report vehicle approach body =>
    match numbered 16 approach with
    | none => none
    | some a =>
      if validVehicle vehicle && validBody body then some { vehicle := vehicle, approach := a, body := body, stamp := stamp } else none

/-- The arrival checks of a hand-on (R63): the record with its deviation clamped and its receipt stamp, or none where it is discarded. -/
def arrivingHandOn (h : HandOnFrame) (stamp : Clock) : Option HandOn :=
  match numbered 4 h.entry with
  | none => none
  | some entry =>
    if validVehicle h.vehicle && validRoute h.route then
      some { vehicle := h.vehicle, route := h.route, deviation := clampDs h.deviation, entry := entry, stamp := stamp }
    else none

/-! ### Written entries (R5–R17, R19) -/

/-- The number of entries of a table (R2). -/
def tableSize : TableName → Nat
  | .junction => 4
  | .phase => 32
  | .gate => 4
  | .approach => 16
  | .reach => 128
  | .entry => 4
  | .routeRange => 16
  | .group => 8
  | .cls => 4
  | .level => 4
  | .enables => 1
  | .parameter => 23

/-- The range of each unit parameter (R16). Intake order is coded (R17). -/
def parameterRanges : Vector (Nat × Nat) 23 :=
  #v[(300, 6000), (0, 100), (10, 300), (0, 300), (0, 200), (100, 1200), (300, 3000), (0, 3000), (10, 200), (600, 18000), (0, 8),
     (0, 600), (100, 36000), (1, 255), (0, 600), (1, 101), (1, 101), (1, 101), (0, 20), (0, 1), (1, 6000), (1, 6000), (1, 3000)]

def clampJunction (present : Bool) (count : Nat) : JunctionEntry := { present := present, phaseCount := clamp 2 8 count }

/-- R6: the split is clamped first, and the minimum green to the clamped split. -/
def clampPhase (split minGreen clearance maxExtension : Nat) (guarded : Bool) : PhaseEntry :=
  let g := clamp 50 1200 split
  { split := g, minGreen := clamp 40 g minGreen, clearance := clamp 30 120 clearance, maxExtension := clamp 0 600 maxExtension,
    guarded := guarded }

/-- The setting of a gate as a WRITE CONFIG or a SET GATE carries it: none where a coded field is outside its values (R7, R19, R101). -/
def gateOf (mode m u tu : Nat) : Option Gate := do
  let x ← gateModeOf mode
  let mask ← switchOf m
  let upper ← switchOf u
  return { mode := x, m := mask, u := upper, tu := clamp 2 3 tu }

/-- R8. It has no coded field but the presence of its optional ones, and every number is clamped to its range (R19 step 3, log 20). -/
def clampApproach (junction : OptionalField) (busPhase reachCount trust : Nat) (exitTarget : OptionalField) (limit : Nat) :
    ApproachEntry :=
  { junction := optionalNumber 3 junction, busPhase := clampNumber 7 busPhase, reachCount := clamp 1 8 reachCount,
    trust := clamp 0 4 trust, exitTarget := optionalNumber 3 exitTarget, secondaryLimit := clamp 0 3 limit }

/-- R9. -/
def reachOf (length cruise stop dwellMode fixedDwell : Nat) : Option ReachEntry := do
  let flag ← switchOf stop
  let mode ← dwellModeOf dwellMode
  return { length := clamp 1 2000 length, cruise := clamp 10 250 cruise, stop := flag, dwellMode := mode,
           fixedDwell := clamp 0 1200 fixedDwell }

/-- R14. -/
def enablesOf (approach grantNotice levelNotice referral : List Nat) : Option Enables := do
  let a ← switchGroup 16 approach
  let g ← switchGroup 4 grantNotice
  let l ← switchGroup 3 levelNotice
  let r ← switchGroup 5 referral
  return { approach := a, grantNotice := g, levelNotice := l, referral := r }

/-- A parameter's written value: intake order is refused outside its codes, every other value clamped (R16, R17). -/
def parameterOf (n : Fin 23) (v : Nat) : Option Nat :=
  if n = 19 then (switchOf v).map fun b => if b then 1 else 0
  else some (clamp (parameterRanges.get n).1 (parameterRanges.get n).2 v)

/-- Whether the values fit the named table's entry (R19): the groups of switches have their lengths, and an optional field's presence marker is
present or absent (R169 step 3). -/
def fitsTable : WrittenEntry → Bool
  | .enables a g l r => a.length == 16 && g.length == 4 && l.length == 3 && r.length == 5
  | .junction _ _ => true
  | .phase _ _ _ _ _ => true
  | .gate _ _ _ _ => true
  | .approach j _ _ _ x _ => presenceMarked j && presenceMarked x
  | .reach _ _ _ _ _ => true
  | .entry a _ => presenceMarked a
  | .routeRange _ _ _ => true
  | .group _ => true
  | .cls _ => true
  | .level _ _ => true
  | .parameter _ => true

/-- A write whose index, coded fields and clamps have been taken (R19 steps 1 to 3). -/
inductive CheckedWrite where
  | junction (j : JunctionNo) (e : JunctionEntry)
  | phase (k : Fin 32) (e : PhaseEntry)
  | gate (j : JunctionNo) (g : Gate)
  | approach (a : ApproachNo) (e : ApproachEntry)
  | reach (k : Fin 128) (e : ReachEntry)
  | entry (x : EntryId) (e : EntryEntry)
  | routeRange (k : Fin 16) (e : RouteRange)
  | group (g : GroupNo) (ceiling : Nat)
  | cls (k : Fin 4) (tier : Nat)
  | level (k : Fin 4) (e : LevelEntry)
  | enables (e : Enables)
  | parameter (n : Fin 23) (value : Nat)
  deriving DecidableEq, Repr

/-- Steps 1 to 3 of R19: none where the index lies beyond the table's last entry or a coded field is outside its valid values (RANGE). -/
def checkWrite (w : ConfigWrite) : Option CheckedWrite :=
  match w.values with
  | .junction present count => do
    let j ← numbered 4 w.index
    let p ← switchOf present
    return .junction j (clampJunction p count)
  | .phase split minGreen clearance maxExtension guarded => do
    let k ← numbered 32 w.index
    let g ← switchOf guarded
    return .phase k (clampPhase split minGreen clearance maxExtension g)
  | .gate mode m u tu => do
    let j ← numbered 4 w.index
    let g ← gateOf mode m u tu
    return .gate j g
  | .approach junction busPhase reachCount trust exitTarget limit => do
    let a ← numbered 16 w.index
    return .approach a (clampApproach junction busPhase reachCount trust exitTarget limit)
  | .reach length cruise stop dwellMode fixedDwell => do
    let k ← numbered 128 w.index
    let e ← reachOf length cruise stop dwellMode fixedDwell
    return .reach k e
  | .entry approach linkTime => do
    let x ← numbered 4 w.index
    return .entry x { approach := optionalNumber 15 approach, linkTime := clamp 0 6000 linkTime }
  | .routeRange low high group => do
    let k ← numbered 16 w.index
    return .routeRange k { low := clamp 1 4095 low, high := clamp 1 4095 high, group := clampNumber 7 group }
  | .group ceiling => do
    let g ← numbered 8 w.index
    return .group g (clamp 0 3 ceiling)
  | .cls tier => do
    let k ← numbered 4 w.index
    return .cls k (clamp 0 3 tier)
  | .level cap floor => do
    let k ← numbered 4 w.index
    return .level k { cap := clamp 0 6000 cap, floor := clamp 1 4 floor }
  | .enables a g l r => do
    let _ ← numbered 1 w.index
    let e ← enablesOf a g l r
    return .enables e
  | .parameter v => do
    let n ← numbered 23 w.index
    let x ← parameterOf n v
    return .parameter n x

/-! ### The image with a write applied (R18, R19, R22) -/

/-- The ordering clamp of the level thresholds (R18). -/
def orderThresholds (p : Vector Nat 23) : Vector Nat 23 :=
  let lo := p.get 15
  let mid := if p.get 16 ≤ lo then min 101 (lo + 1) else p.get 16
  let hi := if p.get 17 ≤ mid then min 101 (mid + 1) else p.get 17
  (p.set 16 mid).set 17 hi

/-- Whether a parameter is one of the three level thresholds (R18). -/
def isThreshold (n : Fin 23) : Bool := n == 15 || n == 16 || n == 17

/-- The approaches whose enables a JUNCTION write turns off: those of the junction whose bus phase is at or beyond its new phase count
(R22). -/
def beyondCount (img : Image) (j : JunctionNo) (count : Nat) (a : ApproachNo) : Bool :=
  (img.approach a).junction == some j && decide (count ≤ (img.approach a).busPhase.val) && img.enabled a

/-- The image with a JUNCTION write applied: a present junction's lowered phase count turns enables off (R22). -/
def writeJunction (img : Image) (j : JunctionNo) (e : JunctionEntry) : Image :=
  let old := img.junction j
  let lowered := old.present && e.present && decide (e.phaseCount < old.phaseCount)
  let en := img.enables
  { img with
    junctions := img.junctions.set j e
    enables := if lowered then
      { en with approach := .ofFn fun a => en.approach.get a && !beyondCount img j e.phaseCount a } else en }

/-- The image with a checked write applied (R19 step 6). -/
def applyWrite (img : Image) : CheckedWrite → Image
  | .junction j e => writeJunction img j e
  | .phase k e => { img with phases := img.phases.set k e }
  | .gate j g => { img with gates := img.gates.set j g }
  | .approach a e => { img with approaches := img.approaches.set a e }
  | .reach k e => { img with reaches := img.reaches.set k e }
  | .entry x e => { img with entries := img.entries.set x e }
  | .routeRange k e => { img with routes := img.routes.set k e }
  | .group g c => { img with groups := img.groups.set g c }
  | .cls k t => { img with classes := img.classes.set k t }
  | .level k e => { img with levels := img.levels.set k e }
  | .enables e => { img with enables := e }
  | .parameter n v =>
    let p := img.parameters.set n v
    { img with parameters := if isThreshold n then orderThresholds p else p }

/-- Whether the configuration lock bars a write (R19 step 4, R182): a PHASE write that would change more than the split. -/
def lockBars (img : Image) : CheckedWrite → Bool
  | .phase k e =>
    let old := img.phases.get k
    !(e.minGreen == old.minGreen && e.clearance == old.clearance && e.maxExtension == old.maxExtension && e.guarded == old.guarded)
  | .junction _ _ => false
  | .gate _ _ => false
  | .approach _ _ => false
  | .reach _ _ => false
  | .entry _ _ => false
  | .routeRange _ _ => false
  | .group _ _ => false
  | .cls _ _ => false
  | .level _ _ => false
  | .enables _ => false
  | .parameter _ _ => false

/-- What the reply to an accepted write carries: the entry as stored, or the three thresholds after a threshold write (R18, R19). -/
def writtenBody (img : Image) : CheckedWrite → ReplyBody
  | .junction j _ => .entry (.junction (img.junction j))
  | .phase k _ => .entry (.phase (img.phases.get k))
  | .gate j _ => .entry (.gate (img.gates.get j))
  | .approach a _ => .entry (.approach (img.approach a))
  | .reach k _ => .entry (.reach (img.reaches.get k))
  | .entry x _ => .entry (.entry (img.entries.get x))
  | .routeRange k _ => .entry (.routeRange (img.routes.get k))
  | .group g _ => .entry (.group (img.groups.get g))
  | .cls k _ => .entry (.cls (img.classes.get k))
  | .level k _ => .entry (.level (img.levels.get k))
  | .enables _ => .entry (.enables img.enables)
  | .parameter n _ =>
    if isThreshold n then .thresholds img.thresholdLo img.thresholdMid img.thresholdHi else .entry (.parameter (img.parameter n))

/-- An entry of the working image as it stands (R23); none where the index lies beyond the table's last entry. -/
def Image.read (img : Image) (t : TableName) (index : Nat) : Option TableEntry :=
  match t with
  | .junction => (numbered 4 index).map fun j => .junction (img.junctions.get j)
  | .phase => (numbered 32 index).map fun k => .phase (img.phases.get k)
  | .gate => (numbered 4 index).map fun j => .gate (img.gates.get j)
  | .approach => (numbered 16 index).map fun a => .approach (img.approaches.get a)
  | .reach => (numbered 128 index).map fun k => .reach (img.reaches.get k)
  | .entry => (numbered 4 index).map fun x => .entry (img.entries.get x)
  | .routeRange => (numbered 16 index).map fun k => .routeRange (img.routes.get k)
  | .group => (numbered 8 index).map fun g => .group (img.groups.get g)
  | .cls => (numbered 4 index).map fun k => .cls (img.classes.get k)
  | .level => (numbered 4 index).map fun k => .level (img.levels.get k)
  | .enables => (numbered 1 index).map fun _ => .enables img.enables
  | .parameter => (numbered 23 index).map fun n => .parameter (img.parameters.get n)

end Sys2Proof.Machine
end

