-- ==== Sys2Proof/Machine/Flags.lean ====
section
/-!
DEFINITION. Machine/Flags.lean: the sticky flags of the unit and what sets and clears them: overrun (R30, R31), rise (R139), anomaly (R148),
OVER (R164), notice overflow (R173, R177) and the fault flags (R133); and the level comparison that sets the rise flags (R138).
-/
namespace Sys2Proof.Machine

/-! ### CLEAR FLAGS (R173) -/

/-- Whether a set of numbers names a number. -/
def names (l : List Nat) (n : Nat) : Bool := l.contains n

/-- The rise flags left after a set of junction and level pairs is cleared (R139). Levels are named by their codes: LO 1, MID 2, HI 3. -/
def clearRises (l : List (Nat × Nat)) (j : JunctionNo) (f : RiseFlags) : RiseFlags :=
  { lo := f.lo && !l.contains (j.val, 1), mid := f.mid && !l.contains (j.val, 2), hi := f.hi && !l.contains (j.val, 3) }

/-- Every named flag is cleared (R31, R139, R148, R164, R173). A number that names no flag clears none. -/
def clearNamed (x : FlagSets) (overflow : Bool) (e : Event) : Event :=
  { e with
    slots := .ofFn fun k => let s := e.slots.get k; { s with overrunFlag := s.overrunFlag && !names x.slots k.val }
    loads := .ofFn fun j => let l := e.loads.get j; { l with rises := clearRises x.rises j l.rises }
    anomalyFlags := .ofFn fun c => e.anomalyFlags.get c && !names x.classes c.val
    reliability := .ofFn fun a => let r := e.reliability.get a; { r with overFlag := r.overFlag && !names x.approaches a.val }
    overflow := e.overflow && !overflow }

/-- Every flag of the five kinds as it stands (R173). -/
def State.flagView (s : State) : FlagView :=
  { overruns := .ofFn fun k => (s.slots.get k).overrunFlag
    rises := .ofFn fun j => (s.loads.get j).rises
    anomalies := s.anomalyFlags
    overs := .ofFn fun a => (s.reliability.get a).overFlag
    overflow := s.overflow }

/-! ### Fault flags (R133) -/

/-- A fault flag is cleared. -/
def clearFaultFlag (f : FaultFlags) : FaultKind → FaultFlags
  | .refused => { f with refused := false }
  | .noAck => { f with noAck := false }
  | .badAck => { f with badAck := false }

/-- Whether any fault flag is set. -/
def FaultFlags.any (f : FaultFlags) : Bool := f.refused || f.noAck || f.badAck

/-! ### Levels and rise flags (R138, R139) -/

/-- The threshold of a level (R138). NORMAL has none of its own. -/
def Image.threshold (img : Image) : Level → Nat
  | .normal => 0
  | .lo => img.thresholdLo
  | .mid => img.thresholdMid
  | .hi => img.thresholdHi

/-- The highest level above the current one whose threshold is at or below the average (R138 step 1). -/
def risenLevel (img : Image) (l : Level) (average : Nat) : Option Level :=
  let crossed (x : Level) : Bool := decide (levelIndex l < levelIndex x) && decide (img.threshold x ≤ average)
  if crossed .hi then some .hi else if crossed .mid then some .mid else if crossed .lo then some .lo else none

/-- The level one step down (R138 step 2). -/
def stepDown : Level → Level
  | .normal => .normal
  | .lo => .normal
  | .mid => .lo
  | .hi => .mid

/-- Whether the average lies below a level's threshold less the hysteresis (R138 step 2). -/
def fallsFrom (img : Image) (l : Level) (average : Nat) : Bool :=
  l != .normal && decide ((average : Int) < (img.threshold l : Int) - img.hysteresis)

/-- One step of a fall, where the test holds. -/
def fallOnce (img : Image) (average : Nat) (l : Level) : Level := if fallsFrom img l average then stepDown l else l

/-- The level after a fall: a step at a time, each tested against the level it starts from (R138 step 2). -/
def fallenLevel (img : Image) (l : Level) (average : Nat) : Level :=
  fallOnce img average (fallOnce img average (fallOnce img average l))

def setRise (l : Level) (f : RiseFlags) : RiseFlags :=
  match l with
  | .normal => f
  | .lo => { f with lo := true }
  | .mid => { f with mid := true }
  | .hi => { f with hi := true }

/-- The LEVEL notice enable of a level (R14, R139). -/
def Image.levelNotice (img : Image) : Level → Bool
  | .normal => false
  | .lo => img.enables.levelNotice.get 0
  | .mid => img.enables.levelNotice.get 1
  | .hi => img.enables.levelNotice.get 2

def setLoad (j : JunctionNo) (x : Load) (e : Event) : Event := { e with loads := e.loads.set j x }

/-- A change of level is handed to the junction's arbiter (R140): its entries are reviewed, and it is an evaluation trigger. -/
def handLevel (j : JunctionNo) (e : Event) : Event := if e.present j then trigger j (review j e) else review j e

/-- The level comparison of a junction on its average (R138, R139). -/
def compareLevel (j : JunctionNo) (e : Event) : Event :=
  let x := e.load j
  match risenLevel e.image x.level x.average with
  | some l =>
    let e1 := setLoad j { x with level := l, rises := setRise l x.rises } e
    let e2 := if e.image.levelNotice l then offer (.level j l x.level x.average e.clock) e1 else e1
    handLevel j e2
  | none =>
    let l := fallenLevel e.image x.level x.average
    if l = x.level then e else handLevel j (setLoad j { x with level := l } e)

end Sys2Proof.Machine
end

