-- ==== Sys2Proof/Machine/Intake.lean ====
section
/-!
DEFINITION. Machine/Intake.lean: the Intake Buffer's commands (Chapter 2): reports that arrive, the take, and the slots.
-/
namespace Sys2Proof.Machine

/-- A report kind's index among the kind switches, in the order of R24. -/
def kindIndex : ReportBody → Fin 6
  | .checkIn _ _ _ _ => 0
  | .position _ _ _ => 1
  | .stopArrive _ _ => 2
  | .stopDepart _ _ => 3
  | .passed => 4
  | .checkOut => 5

/-- Whether a slot matches a report (R29). -/
def Slot.admits (x : Slot) (r : Report) : Bool :=
  x.code != .inactive && x.approachSwitches.get r.approach && x.kindSwitches.get (kindIndex r.body)

/-- Whether a slot holds a report by its code. -/
def Slot.holds (x : Slot) : Bool := x.code == .full || x.code == .overrun

/-- The lowest-numbered unheld slot that matches a report and passes a test. -/
def State.findSlot (s : State) (r : Report) (test : Slot → Bool) : Option SlotNo :=
  (List.finRange 16).find? fun k => (s.slots.get k).admits r && test (s.slots.get k) && s.hold != some k

/-- The placement of a checked report (R30). -/
def placeInSlot (r : Report) (s : State) : State :=
  match s.findSlot r (fun x => x.code == .empty) with
  | some k => { s with slots := s.slots.set k { s.slots.get k with code := .full, report := some r } }
  | none =>
    match s.findSlot r Slot.holds with
    | some k => { s with slots := s.slots.set k { s.slots.get k with code := .overrun, report := some r, overrunFlag := true } }
    | none => s

/-- A frame of the radio port whose check word matches, with the clock value of its arrival: its report is checked, stamped and placed, or discarded (R25, R26,
R30). -/
def receiveReport (f : RadioFrame) (arrival : Clock) (s : State) : State :=
  match intakeReport f arrival with
  | none => s.hunt .radio
  | some r => placeInSlot r (s.hunt .radio)

/-- Whether a slot is eligible for the take: it holds a report and is not held (R32). -/
def State.takeable (s : State) (k : SlotNo) : Bool := (s.slots.get k).holds && s.hold != some k

/-- The stamp of a slot's report. -/
def State.slotStamp (s : State) (k : SlotNo) : Clock := (((s.slots.get k).report).map (·.stamp)).getD 0

/-- The eligible slot whose stamp is the oldest, the lowest-numbered among equal stamps (R33). Where no stamp has every other at or
after it, the slots are gone through in their order (log 49). -/
def State.oldestSlot (s : State) (l : List SlotNo) : Option SlotNo :=
  l.foldl (fun best k =>
    match best with
    | none => some k
    | some b => if earlier (s.slotStamp k) (s.slotStamp b) then some k else some b) none

/-- The slot TM takes, by the intake order (R33). -/
def State.chosenSlot (s : State) : Option SlotNo :=
  let l := (List.finRange 16).filter s.takeable
  if s.image.intakeByAge then s.oldestSlot l else l.head?

/-- The take empties the slot (R32). -/
def emptySlot (k : SlotNo) (s : State) : State :=
  { s with slots := s.slots.set k { s.slots.get k with code := .empty, report := none } }

/-- TAKE_REPORT: TM, free and with no hand-on waiting, takes a report and acts on it (R32, R33, R44). Otherwise it takes none (log 11). -/
def execTakeReport (s : State) : Host.Outcome State Fault Refusal :=
  if s.stall.isSome ∨ s.corridorQueue ≠ [] then .next s
  else
    match s.chosenSlot with
    | none => .next s
    | some k =>
      match (s.slots.get k).report with
      | none => .next s
      | some r => .next (event (screenReport r) (emptySlot k s))

/-- HOLD_SLOT (R35). -/
def execHoldSlot (r : Request Nat) (s : State) : Host.Outcome State Fault Refusal :=
  .next (request 0x06 r (fun n e =>
    match numbered 16 n with
    | none => refuse .range e
    | some k => accept (.slot (e.slots.get k)) { e with hold := some k }) s)

/-- RELEASE_SLOT (R36). -/
def execReleaseSlot (r : Request Unit) (s : State) : Host.Outcome State Fault Refusal :=
  .next (request 0x07 r (fun _ e => accept .empty { e with hold := none }) s)

/-- READ_CONFIG_SLOT: READ CONFIG of the SLOT table (R39). -/
def execReadConfigSlot (r : Request Nat) (s : State) : Host.Outcome State Fault Refusal :=
  .next (request 0x08 r (fun n e =>
    match numbered 16 n with
    | none => refuse .range e
    | some k =>
      let x := e.slots.get k
      accept (.slotConfig x.code x.approachSwitches x.kindSwitches (some x.overrunFlag)) e) s)

/-- The codes a SLOT write may set (R37 step 2). -/
def writableCode : Nat → Option SlotCode
  | 0 => some .inactive
  | 1 => some .empty
  | _ => none

/-- A SLOT write whose values are valid (R37, R38): none where its code or a switch is outside its values. -/
def writtenSlot (w : SlotWrite) (x : Slot) : Option Slot := do
  let code ← writableCode w.code
  let a ← switchGroup 16 w.approachSwitches
  let k ← switchGroup 6 w.kindSwitches
  return { x with code := code, approachSwitches := a, kindSwitches := k, report := none }

/-- WRITE_CONFIG_SLOT: WRITE CONFIG to the SLOT table (R37, R38). -/
def execWriteConfigSlot (r : Request SlotWrite) (s : State) : Host.Outcome State Fault Refusal :=
  .next (request 0x09 r (fun w e =>
    if w.approachSwitches.length = 16 ∧ w.kindSwitches.length = 6 then
      match numbered 16 w.index with
      | none => refuse .range e
      | some k =>
        match writtenSlot w (e.slots.get k) with
        | none => refuse .range e
        | some x => accept (.slotConfig x.code x.approachSwitches x.kindSwitches none) { e with slots := e.slots.set k x }
    else refuse .malformed e) s)

end Sys2Proof.Machine
end

