-- ==== Sys2Proof/Machine/Monitor.lean ====
section
/-!
DEFINITION. Machine/Monitor.lean: the commands of the Load Monitor (R135–R139), the Anomaly Unit (R153–R157) and the Reliability Counters
(R163–R165).
-/
namespace Sys2Proof.Machine

/-! ### Load (R136, R137) -/

/-- A sample for a junction (R136). -/
def takeSample (j : JunctionNo) (percent : Nat) (e : Event) : Event :=
  let v := min percent 100
  let x := e.load j
  if e.averagingDeadline.isSome then
    setLoad j { x with sum := saturate 65535 (x.sum + v), count := saturate 65535 (x.count + 1) } e
  else compareLevel j (setLoad j { x with average := v } e)

/-- OCCUPANCY (R111, R136). -/
def execOccupancy (junction percent : Nat) (s : State) : Host.Outcome State Fault Refusal :=
  let s1 := s.hunt .signal
  match s1.presentJunction junction with
  | none => .next s1
  | some j => .next (event (takeSample j percent) s1)

/-- A junction's load at the close of an interval (R137): the new average, or the held one. -/
def closeLoad (x : Load) : Load := if x.count = 0 then x else { x with average := x.sum / x.count, sum := 0, count := 0 }

/-- The close of the averaging interval (R137). The junctions are compared in the order of the next choice (R177, log 5). -/
def closeInterval (e : Event) : Event :=
  let e1 := { e with loads := .ofFn fun j => closeLoad (e.loads.get j) }
  let r := takeOrder e1
  let e2 := r.1.foldl (fun e j => compareLevel j e) r.2
  let interval := e.image.averagingInterval
  { e2 with averagingDeadline := if 0 < interval then some (after e.clock interval) else none }

/-- AVERAGING_DEADLINE (R137). -/
def execAveragingDeadline (s : State) : Host.Outcome State Fault Refusal :=
  if s.due s.averagingDeadline then .next (event closeInterval s) else .next s

/-! ### Anomalies (R153–R157) -/

/-- A CONFLICT returned to its junction: it enters IDLE with a ruling carry and evaluates (R106, R107). -/
def returnConflict (j : JunctionNo) (preferred : Option Nat) (e : Event) : Event :=
  if (e.junction j).state = .awaitRuling then
    trigger j (review j (modJunction j (fun x => { restoreGate x with state := .idle, carry := some { preferred := preferred } }) e))
  else e

/-- The vehicle a returned CONFLICT prefers (R107). -/
def preferredBy (winner : Nat) : Disposal → Option Nat
  | .default => some winner
  | .discard => none
  | .substitute v => some v

/-- AU, its slot emptied, returns a matter: to the junction's arbiter for a conflict, to TM otherwise (R153, R157). -/
def returnMatter (m : Return) (e : Event) : Event :=
  match m.referral.held, m.referral.place with
  | .conflict winner _, .junction j => returnConflict j (preferredBy winner m.disposal) e
  | .conflict _ _, .approach _ => e
  | .report _ _ _, _ => giveReturn m e
  | .dwell, _ => giveReturn m e
  | .redwell _, _ => giveReturn m e

/-- The expiry of the referral deadline: the slot empties, the class's flag is set, and the matter is returned with its default (R157). -/
def expireReferral (r : Referral) (e : Event) : Event :=
  returnMatter { referral := r, disposal := .default }
    (closeReferral { e with anomalyFlags := e.anomalyFlags.set (anomalyIndex r.cls) true })

/-- REFERRAL_DEADLINE (R157). -/
def execReferralDeadline (s : State) : Host.Outcome State Fault Refusal :=
  match s.referral with
  | none => .next s
  | some r => if s.due (some r.deadline) then .next (event (expireReferral r) s) else .next s

/-- The value of a SUBSTITUTE as applied after its clamp (R155), or none where it is refused with RANGE (R153 step 4). -/
def substituteValue (img : Image) (r : Referral) (v : Nat) : Option Nat :=
  match r.cls with
  | .distance => some (clamp 0 (match r.place with | .approach a => runLength (img.reachesInUse a) | .junction _ => 0) v)
  | .reversal => some (clamp 0 (match r.place with | .approach a => runLength (img.reachesInUse a) | .junction _ => 0) v)
  | .horizon => none
  | .dwell => some (clamp 0 1200 v)
  | .conflict => if r.claims v then some v else none
  | .unplaced => if v ≤ 7 then some v else none

/-- The disposal a ruling gives (R153 steps 3 and 4), or none where it is refused with RANGE. The value of a SUBSTITUTE is present. -/
def disposalOf (img : Image) (r : Referral) (code : Nat) (v : Nat) : Option Disposal :=
  match rulingOf code with
  | none => none
  | some .default => some .default
  | some .discard => some .discard
  | some .substitute => (substituteValue img r v).map .substitute

/-- The value a ruling's reply carries: the one applied (R153 step 5). -/
def appliedValue : Disposal → Option Nat
  | .default => none
  | .discard => none
  | .substitute v => some v

/-- RULE at AU (R153). -/
def handleRule (x : Ruling) (e : Event) : Answer :=
  match e.referral with
  | none => refuse .noReferral e
  | some r =>
    if (anomalyIndex r.cls).val = x.cls ∧ r.vehicle = x.vehicle then
      match disposalOf e.image r x.ruling (x.value.getD 0) with
      | none => refuse .range e
      | some d =>
        accept (.ruling x.cls x.vehicle x.ruling (appliedValue d))
          (returnMatter { referral := r, disposal := d } (closeReferral e))
    else refuse .staleRuling e

/-- RULE (R153): a SUBSTITUTE without a value is MALFORMED before it reaches AU (R169 step 3). -/
def execRule (r : Request Ruling) (s : State) : Host.Outcome State Fault Refusal :=
  .next (request 0x0E r (fun x e =>
    if rulingOf x.ruling = some .substitute ∧ x.value = none then refuse .malformed e else handleRule x e) s)

/-! ### Reliability (R163–R165) -/

/-- An approach's counters at a leak expiry (R163). -/
def leakCounters (limit : Nat) (x : Reliability) : Reliability :=
  if x.phantoms = 0 then { x with secondary := 0 }
  else if limit ≤ x.secondary then { x with phantoms := x.phantoms - 1, secondary := 0 }
  else { x with secondary := x.secondary + 1 }

/-- LEAK_DEADLINE (R163). -/
def execLeakDeadline (s : State) : Host.Outcome State Fault Refusal :=
  if s.due (some s.leakDeadline) then
    .next { s with
      reliability := .ofFn fun a => leakCounters (s.image.approach a).secondaryLimit (s.reliability.get a)
      leakDeadline := after s.clock s.image.leakInterval }
  else .next s

/-- The tag of an approach takes a value; a change of it is handed to the arbiter of the approach's junction (R165). -/
def setTag (a : ApproachNo) (tagged : Bool) (e : Event) : Event :=
  let x := e.reliability.get a
  let e1 := { e with reliability := e.reliability.set a { x with tagged := tagged } }
  if x.tagged = tagged then e1
  else
    match (e.image.approach a).junction with
    | none => e1
    | some j => trigger j (review j e1)

/-- TAG (R165). -/
def execTag (r : Request Nat) (s : State) : Host.Outcome State Fault Refusal :=
  .next (request 0x0F r (fun n e =>
    match numbered 16 n with
    | none => refuse .range e
    | some a => accept (.tag true) (setTag a true e)) s)

/-- UNTAG (R165). -/
def execUntag (r : Request Nat) (s : State) : Host.Outcome State Fault Refusal :=
  .next (request 0x10 r (fun n e =>
    match numbered 16 n with
    | none => refuse .range e
    | some a => accept (.tag false) (setTag a false e)) s)

end Sys2Proof.Machine
end

