-- ==== Sys2Proof/Machine/Signal.lean ====
section
/-!
DEFINITION. Machine/Signal.lean: the commands of the signal port and of the junction arbiters (Chapters 5, 6, 7 and 9): phase status,
acknowledgements, the junctions' expiries, detector calls, and the requests that name a junction.
-/
namespace Sys2Proof.Machine

/-- The contents of an accepted PHASE STATUS (R109), with the clock value of its arrival: its junction and the mirror it makes, or none where it is discarded. -/
def acceptedStatus (r : PhaseStatusFrame) (arrival : Clock) (s : State) : Option (JunctionNo × Mirror) := do
  let j ← s.presentJunction r.junction
  let p ← numbered 8 r.phase
  if p.val < (s.image.junction j).phaseCount then
    some (j, { phase := p, interval := r.interval, elapsed := r.elapsed, remaining := r.remaining, receipt := arrival })
  else none

/-- A mirror update (R109, R110, R124): the mirror is fresh, its stale deadline re-formed from its receipt time, the entries reviewed, a grant in progress checked
for its end, and the update is an evaluation trigger. -/
def updateMirror (j : JunctionNo) (m : Mirror) (e : Event) : Event :=
  let e1 := modJunction j (fun x => { x with mirror := some m, stale := false, staleDeadline := some (after m.receipt 30) }) e
  trigger j (mirrorGrant j m (review j e1))

/-- A PHASE STATUS, with the clock value of its arrival (R109). -/
def receiveStatus (r : PhaseStatusFrame) (arrival : Clock) (s : State) : State :=
  let s1 := s.hunt .signal
  match acceptedStatus r arrival s1 with
  | none => s1
  | some (j, m) => event (updateMirror j m) s1

/-- PHASE_STATUS (R109). -/
def execPhaseStatus (r : PhaseStatusFrame) (s : State) : Host.Outcome State Fault Refusal := .next (receiveStatus r s.clock s)

/-- The mirror turns stale: its contents are kept, its deadline goes and the entries are reviewed (R110, R22). -/
def turnStale (j : JunctionNo) (e : Event) : Event :=
  review j (modJunction j (fun x => { x with stale := true, staleDeadline := none }) e)

/-- MIRROR_STALE (R110). -/
def execMirrorStale (j : JunctionNo) (s : State) : Host.Outcome State Fault Refusal :=
  if s.due (s.junction j).staleDeadline then .next (event (turnStale j) s) else .next s

/-- ACK (R111, R118). -/
def execAck (junction : Nat) (tag : Tag) (accepted : Bool) (s : State) : Host.Outcome State Fault Refusal :=
  let s1 := s.hunt .signal
  match s1.presentJunction junction with
  | none => .next s1
  | some j => .next (event (matchAck j tag accepted) s1)

/-- ACK_TIMEOUT (R118, R123). -/
def execAckTimeout (j : JunctionNo) (s : State) : Host.Outcome State Fault Refusal :=
  match (s.junction j).outstanding with
  | none => .next s
  | some o => if s.due (some o.deadline) then .next (event (timeoutOrder j o) s) else .next s

/-- The end of RECOVERY (R132): the junction enters IDLE and evaluates. -/
def endRecovery (j : JunctionNo) (e : Event) : Event :=
  trigger j (review j (modJunction j (fun x => { restoreGate x with state := .idle, recoveryDeadline := none }) e))

/-- RECOVERY_DEADLINE (R132). -/
def execRecoveryDeadline (j : JunctionNo) (s : State) : Host.Outcome State Fault Refusal :=
  if s.due (s.junction j).recoveryDeadline ∧ (s.junction j).state = .recovery then .next (event (endRecovery j) s) else .next s

/-- The close of a budget window (R142). -/
def closeWindow (j : JunctionNo) (e : Event) : Event :=
  trigger j (modJunction j (fun x => { x with
    used := 0, windowNumber := x.windowNumber + 1, windowDeadline := after e.clock e.image.budgetWindow }) e)

/-- WINDOW_DEADLINE (R142). -/
def execWindowDeadline (j : JunctionNo) (s : State) : Host.Outcome State Fault Refusal :=
  if s.due (some (s.junction j).windowDeadline) then .next (event (closeWindow j) s) else .next s

/-! ### Detector calls (R111, R166) -/

/-- The entry that a call with a call time confirms (R166 steps 3 to 5). -/
def confirmable (a : ApproachNo) (time : Clock) (l : List Entry) : Option Entry :=
  (l.filter fun x => x.approach == a && !x.confirmed && earlier x.firstListed time).foldl (fun best x =>
    match best with
    | none => some x
    | some y => if earlier x.eta y.eta then some x else some y) none

/-- A call confirms one entry (R166 step 5). A GRANTED or RIDING entry takes the new value and nothing more. -/
def confirmEntry (j : JunctionNo) (a : ApproachNo) (time : Clock) (e : Event) : Event :=
  match confirmable a time (e.junction j).list with
  | none => e
  | some x =>
    let e1 := modJunction j (fun y => { y with list := updateEntry x.vehicle (fun z => { z with confirmed := true }) y.list }) e
    if claimsGrant x then e1 else trigger j (review j e1)

/-- A detector call of a present junction, with its call time (R111, R166). -/
def handleCall (j : JunctionNo) (approach presence : Nat) (time : Clock) (e : Event) : Event :=
  let e1 := modJunction j (fun x => { x with
    lastCall := some { approach := approach, presence := presence, receipt := time } }) e
  match numbered 16 approach with
  | none => e1
  | some a =>
    if presence = 1 ∧ (e.reliability.get a).tagged ∧ (e.image.approach a).junction = some j then confirmEntry j a time e1 else e1

/-- A DETECTOR CALL, with the clock value of its arrival (R111, R166). -/
def receiveCall (junction approach presence : Nat) (arrival : Clock) (s : State) : State :=
  let s1 := s.hunt .signal
  match s1.presentJunction junction with
  | none => s1
  | some j => event (handleCall j approach presence arrival) s1

/-- DETECTOR_CALL (R111, R166). -/
def execDetectorCall (junction approach presence : Nat) (s : State) : Host.Outcome State Fault Refusal :=
  .next (receiveCall junction approach presence s.clock s)

/-! ### Requests that name a junction -/

/-- READ_LIST (R108). -/
def execReadList (r : Request Nat) (s : State) : Host.Outcome State Fault Refusal :=
  .next (request 0x05 r (fun n e =>
    match numbered 4 n with
    | none => refuse .range e
    | some j => accept (.list (if e.present j then (e.junction j).list else [])) e) s)

/-- The two vehicles of the conflict referral of an AWAIT_RULING junction (R108). -/
def State.conflictVehicles (s : State) (j : JunctionNo) : Option (Nat × Nat) :=
  match s.referral with
  | none => none
  | some r =>
    match r.held with
    | .conflict w o => if (s.junction j).state = .awaitRuling ∧ r.conflictAt j then some (w, o) else none
    | .report _ _ _ => none
    | .dwell => none
    | .redwell _ => none

/-- Everything one junction holds (R174). Of the abandoned order the tag is shown, and its kind is not: R174 lists the tag alone (log 38). -/
def State.junctionView (s : State) (j : JunctionNo) : JunctionView :=
  let x := s.junction j
  let l := s.load j
  { present := s.present j, state := x.state, faults := x.faults, abandoned := x.abandoned.map (·.1), discard := x.discard
    tagCounter := x.tagCounter, outstanding := x.outstanding.map fun o => (o.order, o.tag, o.deadline)
    pendingOrder := x.pendingOrder.map (·.order), grant := x.grant, sequenceBorrowed := x.sequenceBorrowed
    recoveryDeadline := x.recoveryDeadline, mirror := x.mirror, stale := x.stale, lastCall := x.lastCall, gate := x.gate
    saved := x.saved, carry := x.carry, conflict := s.conflictVehicles j, average := l.average, level := l.level, sum := l.sum
    count := l.count, rises := l.rises, used := x.used, windowNumber := x.windowNumber, windowDeadline := x.windowDeadline
    cap := (s.levelEntry j).cap, floor := s.tierFloor j, budgetLeft := s.budgetLeft j }

/-- READ_JUNCTION (R174). -/
def execReadJunction (r : Request Nat) (s : State) : Host.Outcome State Fault Refusal :=
  .next (request 0x04 r (fun n e =>
    match numbered 4 n with
    | none => refuse .range e
    | some j => accept (.junction (e.junctionView j)) e) s)

/-- SET GATE at a junction with a setting (R101 steps 4 and 5). -/
def writeGate (j : JunctionNo) (g : Gate) (e : Event) : Answer :=
  let body (s : State) : ReplyBody := .gate (s.junction j).gate (s.junction j).saved
  if (e.junction j).saved.isSome then
    { result := .okDeferred, body := body, after := modJunction j (fun x => { x with saved := some g }) e }
  else
    { result := .ok, body := body, after := trigger j (review j (modJunction j (fun x => { x with gate := g }) e)) }

/-- SET_GATE (R101). -/
def execSetGate (r : Request GateSetting) (s : State) : Host.Outcome State Fault Refusal :=
  .next (request 0x0A r (fun x e =>
    match numbered 4 x.junction, gateOf x.mode x.m x.u x.tu with
    | some j, some g => writeGate j g e
    | _, _ => refuse .range e) s)

/-- Named fault flags of a junction are cleared; when none remains a FROZEN junction enters IDLE and evaluates (R133). -/
def clearFaults (j : JunctionNo) (kinds : List FaultKind) (e : Event) : Event :=
  let f := kinds.foldl clearFaultFlag (e.junction j).faults
  let e1 := modJunction j (fun x => { x with faults := f }) e
  if f.any = false ∧ (e.junction j).state = .frozen then
    trigger j (review j (modJunction j (fun x => { restoreGate x with state := .idle }) e1))
  else e1

/-- CLEAR_FAULT (R133). -/
def execClearFault (r : Request FaultClear) (s : State) : Host.Outcome State Fault Refusal :=
  .next (request 0x0D r (fun x e =>
    match numbered 4 x.junction, x.kinds.mapM faultKindOf with
    | some j, some kinds =>
      { result := .ok, body := fun s => .faults (s.junction j).faults, after := clearFaults j kinds e }
    | _, _ => refuse .range e) s)

/-- CLEAR_JUNCTION (R175). -/
def execClearJunction (r : Request Nat) (s : State) : Host.Outcome State Fault Refusal :=
  .next (request 0x11 r (fun n e =>
    match numbered 4 n with
    | none => refuse .range e
    | some j => { result := .ok, body := fun s => .junctionState (s.junction j).state, after := clearJunction j e }) s)

end Sys2Proof.Machine
end

