-- ==== Sys2Proof/Machine/Configuration.lean ====
section
/-!
DEFINITION. Machine/Configuration.lean: the commands of the Corridor Description and the Configuration Store (Chapters 1 and 11).
-/
namespace Sys2Proof.Machine

/-- READ_CONFIG (R23). -/
def execReadConfig (r : Request ConfigRead) (s : State) : Host.Outcome State Fault Refusal :=
  .next (request 0x08 r (fun x e =>
    match e.image.read x.table x.index with
    | none => refuse .range e
    | some t => accept (.entry t) e) s)

/-! ### Effects of an accepted write on work in progress (R5, R21, R22, R137, R140) -/

/-- The withdrawal of the requests of approaches a write has disabled (R21, R22). -/
def withdrawDisabled (old new : Image) (e : Event) : Event :=
  ((List.finRange 16).filter fun a => old.enabled a && !new.enabled a).foldl (fun e a => withdrawApproach a e) e

/-- The effects of a JUNCTION write (R5, R22): a junction made not present is cleared; a lowered phase count withdraws the requests of the
approaches it disables and turns a mirror stale whose current phase lies beyond it. -/
def junctionEffects (j : JunctionNo) (x : JunctionEntry) (old : Image) (e : Event) : Event :=
  let was := old.junction j
  if was.present && !x.present then clearJunction j e
  else if was.present && decide (x.phaseCount < was.phaseCount) then
    let e1 := withdrawDisabled old e.image e
    match (e1.junction j).mirror with
    | none => e1
    | some m => if x.phaseCount ≤ m.phase.val then turnStale j e1 else e1
  else e

/-- The effects of an accepted write, the image already written (R19 step 6). -/
def writeEffects (w : CheckedWrite) (old : Image) (e : Event) : Event :=
  match w with
  | .junction j x => junctionEffects j x old e
  | .approach a x =>
    let was := old.approach a
    if was.junction = x.junction ∧ was.busPhase = x.busPhase then e else withdrawApproach a e
  | .enables _ => withdrawDisabled old e.image e
  | .level _ _ => ((List.finRange 4).filter e.present).foldl (fun e j => trigger j (review j e)) e
  | .parameter n v =>
    if n = 14 ∧ 0 < v ∧ e.averagingDeadline = none then { e with averagingDeadline := some (after e.clock v) } else e
  | .phase _ _ => e
  | .gate _ _ => e
  | .reach _ _ => e
  | .entry _ _ => e
  | .routeRange _ _ => e
  | .group _ _ => e
  | .cls _ _ => e

/-- Steps 4 to 6 of R19. -/
def handleWrite (w : CheckedWrite) (e : Event) : Answer :=
  let new := applyWrite e.image w
  if e.lock && lockBars e.image w then refuse .locked e
  else if new.consistent then
    { result := .ok, body := fun s => writtenBody s.image w, after := writeEffects w e.image { e with image := new } }
  else refuse .inconsistent e

/-- WRITE_CONFIG to one of the twelve tables (R19). -/
def execWriteConfig (r : Request ConfigWrite) (s : State) : Host.Outcome State Fault Refusal :=
  .next (request 0x09 r (fun w e =>
    if fitsTable w.values then
      match checkWrite w with
      | none => refuse .range e
      | some c => handleWrite c e
    else refuse .malformed e) s)

/-- The ENABLES entry with one group written (R172): none where a switch is neither on nor off. -/
def writeGroup (x : Enables) (group : Fin 4) (l : List Nat) : Option Enables :=
  match group with
  | 0 => (switchGroup 16 l).map fun v => { x with approach := v }
  | 1 => (switchGroup 4 l).map fun v => { x with grantNotice := v }
  | 2 => (switchGroup 3 l).map fun v => { x with levelNotice := v }
  | 3 => (switchGroup 5 l).map fun v => { x with referral := v }

/-- The number of switches of a group (R14). -/
def groupSize : Fin 4 → Nat
  | 0 => 16
  | 1 => 4
  | 2 => 3
  | 3 => 5

/-- SET ENABLES of a group whose switches are all given (R172). -/
def handleEnables (g : Fin 4) (l : List Nat) (e : Event) : Answer :=
  match writeGroup e.image.enables g l with
  | none => refuse .range e
  | some x =>
    let new := { e.image with enables := x }
    if new.consistent then accept (.enables x) (withdrawDisabled e.image new { e with image := new })
    else refuse .inconsistent e

/-- SET_ENABLES (R172). -/
def execSetEnables (r : Request EnablesSetting) (s : State) : Host.Outcome State Fault Refusal :=
  .next (request 0x0B r (fun x e =>
    match numbered 4 x.group with
    | none => refuse .range e
    | some g => if x.switches.length = groupSize g then handleEnables g x.switches e else refuse .malformed e) s)

/-! ### The store (R182–R184) -/

/-- COMMIT_CONFIG (R183). -/
def execCommitConfig (r : Request Unit) (s : State) : Host.Outcome State Fault Refusal :=
  .next (request 0x13 r (fun _ e =>
    if e.lock then refuse .locked e
    else if e.commit.isSome then refuse .busy e
    else accept .empty { e with commit := some e.image, condition := .writing }) s)

/-- LOCK_CONFIG (R182). -/
def execLockConfig (r : Request Unit) (s : State) : Host.Outcome State Fault Refusal :=
  .next (request 0x14 r (fun _ e => accept (.lock true) { e with lock := true }) s)

/-- An image in a store under a free word that does not match it (R184, log 6). -/
def unmatched (i : Nat) (img : Image) : StoredImage :=
  let w := Config.damagedWord i
  { tables := img, word := if w = checkWord img then ~~~w else w }

/-- What a store holds after a write that failed: free values under a word that does not match (R184, log 6). -/
def damagedStore (i : Nat) : StoredImage := unmatched i (Config.damagedImage i)

/-- A table of which a write has reached the entries that `written` picks, numbered from `base`. -/
def partTable {α : Type} {n : Nat} (written : Nat → Bool) (base : Nat) (new old : Vector α n) : Vector α n :=
  .ofFn fun k => if written (base + k.val) then new.get k else old.get k

/-- The image of which a write has reached some entries, numbered in table order and index order: they hold the snapshot's values, and the others
what the store held before (R184, log 6). -/
def partImage (written : Nat → Bool) (new old : Image) : Image :=
  { junctions := partTable written 0 new.junctions old.junctions
    phases := partTable written 4 new.phases old.phases
    gates := partTable written 36 new.gates old.gates
    approaches := partTable written 40 new.approaches old.approaches
    reaches := partTable written 56 new.reaches old.reaches
    entries := partTable written 184 new.entries old.entries
    routes := partTable written 188 new.routes old.routes
    groups := partTable written 204 new.groups old.groups
    classes := partTable written 212 new.classes old.classes
    levels := partTable written 216 new.levels old.levels
    enables := if written 220 then new.enables else old.enables
    parameters := partTable written 221 new.parameters old.parameters }

/-- What a store holds after a write of a snapshot that a cold start has ended part-done: part of the snapshot, under a word that does not match
(R184, log 6). -/
def interruptedStore (i : Nat) (snapshot : Image) (old : StoredImage) : StoredImage :=
  unmatched i (partImage (Config.entryWritten i) snapshot old.tables)

/-- The end of a store write (R184). -/
def completeCommit (snapshot : Image) (ok : Bool) (e : Event) : Event :=
  let e1 : Event :=
    if ok then { e with stored := { tables := snapshot, word := checkWord snapshot }, condition := .sound }
    else { e with stored := damagedStore e.freeIndex, freeIndex := e.freeIndex + 1, condition := .damaged }
  offer (.commitDone ok) { e1 with commit := none, lastCommit := some ok }

/-- STORE_WRITE_COMPLETE (R184); it changes nothing where no commit runs (log 11). -/
def execStoreWriteComplete (ok : Bool) (s : State) : Host.Outcome State Fault Refusal :=
  match s.commit with
  | none => .next s
  | some snapshot => .next (event (completeCommit snapshot ok) s)

end Sys2Proof.Machine
end

