-- ==== Sys2Proof/Machine/System.lean ====
section
/-!
DEFINITION. Machine/System.lean: the commands of the whole unit: start-up and restart (Chapters 10 and 11), the unit-wide requests, the clock
and the frame level (Chapter 12).
-/
namespace Sys2Proof.Machine

/-! ### Start-up (R181) -/

/-- What the store holds at a cold start: an interrupted commit leaves part of its snapshot in it, under a word that does not match (R184). -/
def storeAtStart (s : State) : StoredImage :=
  match s.commit with
  | none => s.stored
  | some snapshot => interruptedStore s.freeIndex snapshot s.stored

/-- The averaging deadline formed at a reset (R135). -/
def firstAveraging (img : Image) (now : Clock) : Option Clock :=
  if 0 < img.averagingInterval then some (after now img.averagingInterval) else none

/-- Every block at its cold-start values, with the image loaded and the START notice taken by the idle transmitter (R181, log 3). -/
def coldState (img : Image) (stored : StoredImage) (passed : Bool) (s : State) : State :=
  let condition := if passed then StoreCondition.sound else .damaged
  { State.reset with
    pending := s.pending
    image := img
    junctions := .ofFn fun j => coldJunction (img.gates.get j) (BitVec.ofNat 32 img.budgetWindow)
    averagingDeadline := firstAveraging img 0
    leakDeadline := BitVec.ofNat 32 img.leakInterval
    supervisorFrame := some (.notice { number := 0, body := .start .cold passed condition false none })
    stored := stored
    condition := condition
    startPassed := passed
    freeIndex := if s.commit.isSome then s.freeIndex + 1 else s.freeIndex
    orderChoices := s.orderChoices }

/-- COLD_START (R181). -/
def execColdStart (s : State) : Host.Outcome State Fault Refusal :=
  let stored := storeAtStart s
  .next (if stored.passes then coldState stored.tables stored true s else coldState builtInDefaults stored false s)

/-! ### Warm restart (R176) -/

/-- A slot at a warm restart (R27). -/
def restartSlot (x : Slot) : Slot :=
  { x with code := if x.code = .inactive then .inactive else .empty, report := none, overrunFlag := false }

/-- Every block takes its warm-restart values, and the START notice of cause WARM is queued (R176). -/
def warmRestart (e : Event) : Event :=
  let e1 := (List.finRange 4).foldl (fun e j =>
    modJunction j (fun x => { x with used := 0, windowNumber := 0, windowDeadline := after e.clock e.image.budgetWindow })
      (resetJunction j e)) e
  let e2 : Event := { e1 with
    corridorWaiting := []
    slots := .ofFn fun k => restartSlot (e.slots.get k)
    hold := none
    corridorQueue := []
    sets := .replicate 32 emptySet
    stall := none
    waiting := []
    loads := .replicate 4 restLoad
    averagingDeadline := firstAveraging e.image e.clock
    anomalyFlags := .replicate 6 false
    lastCause := none
    referral := none
    noticeQueue := []
    overflow := false }
  offer (startNotice .warm e2.toState) e2

/-- RESTART (R176). -/
def execRestart (r : Request Unit) (s : State) : Host.Outcome State Fault Refusal :=
  .next (request 0x12 r (fun _ e => accept .empty (warmRestart e)) s)

/-! ### Unit-wide requests -/

/-- The referral slot's superseded count, as a read shows it (R152). -/
def State.supersededCount (s : State) (r : Referral) : Nat :=
  if r.ofTrack r.vehicle then (((s.lookup r.vehicle).bind s.track).map (·.superseded)).getD r.superseded else r.superseded

/-- The open referral, as it is shown (R159). -/
def State.referralView (s : State) (r : Referral) : ReferralView :=
  { cls := r.cls, vehicle := r.vehicle, place := r.place
    report := match r.held with
      | .report x _ _ => some x
      | .dwell => none
      | .redwell _ => none
      | .conflict _ _ => none
    other := r.other, figures := r.figures, opening := r.opening, deadline := r.deadline, superseded := s.supersededCount r }

/-- The unit-wide view (R174). -/
def State.statusView (s : State) : StatusView :=
  { clock := s.clock, overflow := s.overflow, queued := s.noticeQueue.length, nextNumber := s.noticeCounter
    slots := .ofFn fun k => ((s.slots.get k).code, (s.slots.get k).overrunFlag)
    hold := s.hold
    junctions := .ofFn fun j =>
      { state := (s.junction j).state, faults := (s.junction j).faults, level := (s.load j).level, rises := (s.load j).rises }
    anomalyFlags := s.anomalyFlags, lastCause := s.lastCause, referral := s.referral.map s.referralView
    reliability := s.reliability, leakDeadline := s.leakDeadline, startPassed := s.startPassed, condition := s.condition
    lock := s.lock, committing := s.commit.isSome, lastCommit := s.lastCommit }

/-- READ_STATUS (R174). -/
def execReadStatus (r : Request Unit) (s : State) : Host.Outcome State Fault Refusal :=
  .next (request 0x01 r (fun _ e => accept (.status e.statusView) e) s)

/-- UNKNOWN_REQUEST: a kind code that is not one of the twenty (R169 step 2). -/
def execUnknownRequest (kind number : Byte) (s : State) : Host.Outcome State Fault Refusal :=
  .next (request (α := Unit) kind { number := number, body := none } (fun _ e => refuse .malformed e) s)

/-- CLEAR_FLAGS (R173). -/
def execClearFlags (r : Request FlagSets) (s : State) : Host.Outcome State Fault Refusal :=
  .next (request 0x0C r (fun x e =>
    { result := .ok, body := fun s => .flags s.flagView, after := clearNamed x (x.overflow == 1) e }) s)

/-! ### The clock and the frame level (R1, R179, R186) -/

/-- The clock advances by one (R1). -/
def State.tick (s : State) : State := { s with clock := s.clock + 1 }

/-- CORRIDOR_CLOCK_TICK (R1). The moment that ends may have left room that a stalled JOURNEY notice claims (R62, log 5). -/
def execCorridorClockTick (s : State) : Host.Outcome State Fault Refusal :=
  .next (if s.stall.isSome && s.noticeRoom then (event claimRoom s).tick else s.tick)

/-- SUPERVISOR_FRAME_COMPLETE: the frame in transmission ends, a reply's end ending its request's time in progress, and the next begins (R170,
R179). It changes nothing where none is in transmission (log 11). -/
def execSupervisorFrameComplete (s : State) : Host.Outcome State Fault Refusal :=
  match s.supervisorFrame with
  | none => .next s
  | some (.reply _) => .next (event id { s with supervisorFrame := none, marker := false })
  | some (.busy _) => .next (event id { s with supervisorFrame := none })
  | some (.notice _) => .next (event id { s with supervisorFrame := none })

/-- PORT_FRAME_COMPLETE: the signal or the corridor transmitter ends its frame and begins the next that waits (R65, R186). -/
def execPortFrameComplete (p : SendPort) (s : State) : Host.Outcome State Fault Refusal :=
  match p with
  | .signal => .next { s with signalFrame := s.signalWaiting.head?, signalWaiting := s.signalWaiting.tail }
  | .corridor => .next { s with corridorFrame := s.corridorWaiting.head?, corridorWaiting := s.corridorWaiting.tail }

/-- MARKER_BYTE: a marker puts a hunting receiver in frame (R186). A marker byte inside a frame is one of its bytes. -/
def execMarkerByte (p : Port) (s : State) : Host.Outcome State Fault Refusal :=
  .next (if (s.receivers.at p).isSome then s else { s with receivers := s.receivers.put p (some s.clock) })

end Sys2Proof.Machine
end

