-- ==== Sys2Proof/Machine/Table.lean ====
section
/-!
DEFINITION. Machine/Table.lean: the Track Manager's and the Corridor Port's commands (Chapter 3): hand-ons, the expiries of tracks, the
stall limit, and the inspection of the Track Table.
-/
namespace Sys2Proof.Machine

/-- A hand-on, with the clock value of its arrival, is queued at the tail, or dropped (R63). -/
def receiveHandOn (h : HandOnFrame) (arrival : Clock) (s : State) : State :=
  let s1 := s.hunt .corridor
  match arrivingHandOn h arrival with
  | none => s1
  | some x => if s1.corridorQueue.length < 4 then { s1 with corridorQueue := s1.corridorQueue ++ [x] } else s1

/-- HAND_ON_ARRIVAL: a hand-on arrives on the corridor port (R63). -/
def execHandOnArrival (h : HandOnFrame) (s : State) : Host.Outcome State Fault Refusal := .next (receiveHandOn h s.clock s)

/-- TAKE_HAND_ON: TM, free, takes the oldest hand-on (R32, R63, R64). While TM is stalled it takes none (log 11). -/
def execTakeHandOn (s : State) : Host.Outcome State Fault Refusal :=
  if s.stall.isSome then .next s
  else
    match s.corridorQueue with
    | [] => .next s
    | h :: rest => .next (event (handleHandOn h) { s with corridorQueue := rest })

/-- STALL_LIMIT: the record of a stall is dropped with the overflow flag set, and TM goes on (R61). -/
def execStallLimit (s : State) : Host.Outcome State Fault Refusal :=
  match s.stall with
  | none => .next s
  | some x =>
    if s.due (some x.limit) then .next (event (fun e => endStall x { e with overflow := true }) s) else .next s

/-- STALE_DEADLINE (R57). -/
def execStaleDeadline (k : SetNo) (w : Way) (s : State) : Host.Outcome State Fault Refusal :=
  .next (event (fallDue .stale { set := k, way := w }) s)

/-- EXPECT_DEADLINE (R58). -/
def execExpectDeadline (k : SetNo) (w : Way) (s : State) : Host.Outcome State Fault Refusal :=
  .next (event (fallDue .expect { set := k, way := w }) s)

/-- DWELL_DEADLINE (R59). -/
def execDwellDeadline (k : SetNo) (w : Way) (s : State) : Host.Outcome State Fault Refusal :=
  .next (event (fallDue .dwell { set := k, way := w }) s)

/-- READ_TRACK (R67). -/
def execReadTrack (r : Request Nat) (s : State) : Host.Outcome State Fault Refusal :=
  .next (request 0x02 r (fun v e =>
    match (e.lookup v).bind e.track with
    | none => refuse .notFound e
    | some t => accept (.track t) e) s)

/-- READ_SET (R67). -/
def execReadSet (r : Request Nat) (s : State) : Host.Outcome State Fault Refusal :=
  .next (request 0x03 r (fun n e =>
    match numbered 32 n with
    | none => refuse .range e
    | some k => accept (.set (e.sets.get k).a (e.sets.get k).b (e.sets.get k).age) e) s)

end Sys2Proof.Machine
end

