-- ==== Sys2Proof/Machine/Reception.lean ====
section
/-!
DEFINITION. Machine/Reception.lean: frames that are abandoned, and what their receivers find when they go through the bytes again (R186); and the radio
port, on which an abandoned frame is a report that does not fit.
-/
namespace Sys2Proof.Machine

/-- A frame that a receiver has found whole is handed on, as the command it brings, with the clock value at which its last check byte arrived: the stamp and the
receipt time of its record (R186, R187, log 53). No frame brings one of the other commands. -/
def handOn (i : Instr) (arrival : Clock) (s : State) : Host.Outcome State Fault Refusal :=
  match i with
  | .coldStart => .next s
  | .radioReport frame => .next (receiveReport frame arrival s)
  | .frameTimeout _ => .next s
  | .takeReport => .next s
  | .takeHandOn => .next s
  | .handOnArrival record => .next (receiveHandOn record arrival s)
  | .stallLimit => .next s
  | .phaseStatus record => .next (receiveStatus record arrival s)
  | .mirrorStale _ => .next s
  | .occupancy junction percent => execOccupancy junction percent s
  | .detectorCall junction approach presence => .next (receiveCall junction approach presence arrival s)
  | .ack junction tag accepted => execAck junction tag accepted s
  | .ackTimeout _ => .next s
  | .recoveryDeadline _ => .next s
  | .windowDeadline _ => .next s
  | .averagingDeadline => .next s
  | .leakDeadline => .next s
  | .staleDeadline _ _ => .next s
  | .expectDeadline _ _ => .next s
  | .dwellDeadline _ _ => .next s
  | .referralDeadline => .next s
  | .readStatus r => execReadStatus r s
  | .unknownRequest kind number => execUnknownRequest kind number s
  | .readTrack r => execReadTrack r s
  | .readSet r => execReadSet r s
  | .readJunction r => execReadJunction r s
  | .readList r => execReadList r s
  | .holdSlot r => execHoldSlot r s
  | .releaseSlot r => execReleaseSlot r s
  | .readConfig r => execReadConfig r s
  | .readConfigSlot r => execReadConfigSlot r s
  | .writeConfig r => execWriteConfig r s
  | .writeConfigSlot r => execWriteConfigSlot r s
  | .setGate r => execSetGate r s
  | .setEnables r => execSetEnables r s
  | .clearFlags r => execClearFlags r s
  | .clearFault r => execClearFault r s
  | .rule r => execRule r s
  | .tag r => execTag r s
  | .untag r => execUntag r s
  | .clearJunction r => execClearJunction r s
  | .restart r => execRestart r s
  | .commitConfig r => execCommitConfig r s
  | .lockConfig r => execLockConfig r s
  | .storeWriteComplete _ => .next s
  | .supervisorFrameComplete => .next s
  | .portFrameComplete _ => .next s
  | .corridorClockTick => .next s
  | .markerByte _ => .next s
  | .abandonedFrame port _ => .next (s.hunt port)

/-- The state an outcome leads to. -/
def stateAfter (s : State) : Host.Outcome State Fault Refusal → State
  | .next t => t
  | .fault _ => s
  | .refused _ => s

/-- The frames that a receiver has found, each with how many ds ago its last check byte arrived, are handed on one after the other, in the order of their
bytes. -/
def handOnAll (l : List (Instr × Nat)) (s : State) : State :=
  l.foldl (fun s x => stateAfter s (handOn x.1 (s.clock - BitVec.ofNat 32 x.2) s)) s

/-- A port's receiver abandons a frame and resumes hunting at the byte after the frame's marker (R186): every whole frame among the bytes received is
handed on, and a marker whose frame is not complete puts it in frame again. -/
def State.abandon (s : State) (p : Port) (l : List HeardByte) : State :=
  let r := goThrough p 0 l
  let s1 := handOnAll r.1 (s.hunt p)
  match r.2 with
  | none => s1
  | some age => s1.inFrame p age

/-- RADIO_REPORT: a frame arrives on the radio port; its report is checked, stamped and placed, or discarded (R25, R26, R30). -/
def execRadioReport (f : RadioFrame) (s : State) : Host.Outcome State Fault Refusal :=
  match f with
  | .unfit l => .next (s.abandon .radio l)
  | .misfit => .next (receiveReport f s.clock s)
  | .unknownKind _ => .next (receiveReport f s.clock s)
  | .report _ _ _ => .next (receiveReport f s.clock s)

/-- FRAME_TIMEOUT: 5 ds after its marker a frame without its last check byte is abandoned (R186). -/
def execFrameTimeout (f : LateFrame) (s : State) : Host.Outcome State Fault Refusal :=
  match s.receivers.at f.port with
  | none => .next s
  | some t => .next (if s.due (some (after t 5)) then s.abandon f.port f.bytes else s)

/-- ABANDONED_FRAME: a frame whose length or check word does not fit is abandoned; one whose kind or body does not fit is discarded, and the receiver
hunts at the next byte. Nothing is counted, stamped or answered (R186, R187). -/
def execAbandonedFrame (p : Port) (why : AbandonReason) (s : State) : Host.Outcome State Fault Refusal :=
  match why with
  | .length l => .next (s.abandon p l)
  | .checkWord l => .next (s.abandon p l)
  | .kind => .next (s.hunt p)
  | .body => .next (s.hunt p)

end Sys2Proof.Machine
end

