-- ==== Sys2Proof/Machine/Dispatch.lean ====
section
/-! DEFINITION. Machine/Dispatch.lean: the meaning of each command, one arm per row of spec/opcode_table.json. -/
namespace Sys2Proof.Machine

/-- The effect of a command on everything but the queue (R1–R189). -/
def exec (i : Instr) (s : State) : Host.Outcome State Fault Refusal :=
  match i with
  | .coldStart => Sys2Proof.Machine.execColdStart s
  | .radioReport frame => Sys2Proof.Machine.execRadioReport frame s
  | .frameTimeout frame => Sys2Proof.Machine.execFrameTimeout frame s
  | .takeReport => Sys2Proof.Machine.execTakeReport s
  | .takeHandOn => Sys2Proof.Machine.execTakeHandOn s
  | .handOnArrival record => Sys2Proof.Machine.execHandOnArrival record s
  | .stallLimit => Sys2Proof.Machine.execStallLimit s
  | .phaseStatus record => Sys2Proof.Machine.execPhaseStatus record s
  | .mirrorStale j => Sys2Proof.Machine.execMirrorStale j s
  | .occupancy junction percent => Sys2Proof.Machine.execOccupancy junction percent s
  | .detectorCall junction approach presence => Sys2Proof.Machine.execDetectorCall junction approach presence s
  | .ack junction tag accepted => Sys2Proof.Machine.execAck junction tag accepted s
  | .ackTimeout j => Sys2Proof.Machine.execAckTimeout j s
  | .recoveryDeadline j => Sys2Proof.Machine.execRecoveryDeadline j s
  | .windowDeadline j => Sys2Proof.Machine.execWindowDeadline j s
  | .averagingDeadline => Sys2Proof.Machine.execAveragingDeadline s
  | .leakDeadline => Sys2Proof.Machine.execLeakDeadline s
  | .staleDeadline set way => Sys2Proof.Machine.execStaleDeadline set way s
  | .expectDeadline set way => Sys2Proof.Machine.execExpectDeadline set way s
  | .dwellDeadline set way => Sys2Proof.Machine.execDwellDeadline set way s
  | .referralDeadline => Sys2Proof.Machine.execReferralDeadline s
  | .readStatus r => Sys2Proof.Machine.execReadStatus r s
  | .unknownRequest kind number => Sys2Proof.Machine.execUnknownRequest kind number s
  | .readTrack r => Sys2Proof.Machine.execReadTrack r s
  | .readSet r => Sys2Proof.Machine.execReadSet r s
  | .readJunction r => Sys2Proof.Machine.execReadJunction r s
  | .readList r => Sys2Proof.Machine.execReadList r s
  | .holdSlot r => Sys2Proof.Machine.execHoldSlot r s
  | .releaseSlot r => Sys2Proof.Machine.execReleaseSlot r s
  | .readConfig r => Sys2Proof.Machine.execReadConfig r s
  | .readConfigSlot r => Sys2Proof.Machine.execReadConfigSlot r s
  | .writeConfig r => Sys2Proof.Machine.execWriteConfig r s
  | .writeConfigSlot r => Sys2Proof.Machine.execWriteConfigSlot r s
  | .setGate r => Sys2Proof.Machine.execSetGate r s
  | .setEnables r => Sys2Proof.Machine.execSetEnables r s
  | .clearFlags r => Sys2Proof.Machine.execClearFlags r s
  | .clearFault r => Sys2Proof.Machine.execClearFault r s
  | .rule r => Sys2Proof.Machine.execRule r s
  | .tag r => Sys2Proof.Machine.execTag r s
  | .untag r => Sys2Proof.Machine.execUntag r s
  | .clearJunction r => Sys2Proof.Machine.execClearJunction r s
  | .restart r => Sys2Proof.Machine.execRestart r s
  | .commitConfig r => Sys2Proof.Machine.execCommitConfig r s
  | .lockConfig r => Sys2Proof.Machine.execLockConfig r s
  | .storeWriteComplete ok => Sys2Proof.Machine.execStoreWriteComplete ok s
  | .supervisorFrameComplete => Sys2Proof.Machine.execSupervisorFrameComplete s
  | .portFrameComplete port => Sys2Proof.Machine.execPortFrameComplete port s
  | .corridorClockTick => Sys2Proof.Machine.execCorridorClockTick s
  | .markerByte port => Sys2Proof.Machine.execMarkerByte port s
  | .abandonedFrame port reason => Sys2Proof.Machine.execAbandonedFrame port reason s

end Sys2Proof.Machine
end

