-- ==== Sys2Proof/Machine/Step.lean ====
section
/-!
DEFINITION. Machine/Step.lean: one step of the unit: the command at the front of the queue.
-/
namespace Sys2Proof.Machine

/-- The command a table word spells, put at the front of the queue; the state unchanged where the word spells none. -/
def State.withFetchWord (s : State) (nbits w : Nat) : State :=
  match decodeTableWord nbits w with
  | none => s
  | some i => { s with pending := i :: s.pending }

/-- One step: the command at the front of the queue is taken and has its effect. On an empty queue the unit idles (log 14). -/
def step (s : State) : Host.Outcome State Fault Refusal :=
  match s.pending with
  | [] => .next s
  | i :: rest => exec i { s with pending := rest }

end Sys2Proof.Machine
end

