-- ==== Sys2Proof/Safety.lean ====
section
/-!
DEFINITION. Safety.lean: what a safe run of the unit is, and the terms its statements use: the invariants, the parts of State a frame names,
and the states that the supervisor's link comes to when a request is answered.
-/
namespace Sys2Proof.Machine

/-! ### Safe runs -/

/-- A step that goes on: the unit takes its next state. -/
def Goes (s : State) : Prop := ∃ t, step s = .next t

/-! ### The supervisor's link (R169–R171, R179) -/

/-- An idle transmitter has nothing to send: R179 begins a frame as soon as one waits. -/
abbrev State.linkSettled (s : State) : Prop :=
  s.supervisorFrame = none → s.replySlot = none ∧ s.busyList = [] ∧ s.noticeQueue = []

/-- The unit with a reply placed (R170, R171): a busy transmitter leaves it in the reply slot, behind the answers of the busy list; an idle one
begins the answer whose request arrived first (R179). -/
def State.replied (kind number : Byte) (result : Result) (body : ReplyBody) (s : State) : State :=
  let r : Reply := { kind := kind, number := number, result := result, body := body }
  match s.supervisorFrame, s.busyList with
  | some _, l => { s with marker := true, replySlot := some { reply := r, ahead := l.length } }
  | none, [] => { s with marker := true, replySlot := none, supervisorFrame := some (.reply r) }
  | none, b :: rest =>
    { s with marker := true, replySlot := some { reply := r, ahead := rest.length }, busyList := rest, supervisorFrame := some (.busy b) }

/-- The unit with a request answered BUSY by the link (R170): the answer waits at the tail of the busy list, goes out at once on an idle
transmitter, and is not given where four wait. -/
def State.busied (kind number : Byte) (s : State) : State :=
  if s.supervisorFrame.isNone then { s with supervisorFrame := some (.busy { kind := kind, number := number }) }
  else if s.busyList.length < 4 then { s with busyList := s.busyList ++ [{ kind := kind, number := number }] }
  else s

/-- A reply that waits or goes out with a state (R171, R179). -/
def State.answers (s : State) (r : Reply) : Prop :=
  s.supervisorFrame = some (.reply r) ∨ s.replySlot.map (·.reply) = some r

/-- The unit with a notice offered (R177–R179): it takes the counter's number, goes out at once on an idle transmitter, waits at the tail of the queue
where there is room, and is dropped with the overflow flag set otherwise. -/
def State.offered (b : NoticeBody) (s : State) : State :=
  let n : Notice := { number := s.noticeCounter, body := b }
  let s' := { s with noticeCounter := s.noticeCounter + 1 }
  if s.supervisorFrame.isNone then { s' with supervisorFrame := some (.notice n) }
  else if s.noticeQueue.length < 16 then { s' with noticeQueue := s.noticeQueue ++ [n] }
  else { s' with overflow := true }

/-- A notice waits or goes out with a state, or was dropped with the overflow flag set (R177). -/
def State.carries (s : State) (n : Notice) : Prop :=
  n ∈ s.noticeQueue ∨ s.supervisorFrame = some (.notice n) ∨ s.overflow = true

/-- The kind, the number and whether the body fits, of a command that is a supervisor request (R169, R189). -/
def requestOf : Instr → Option (Byte × Byte × Bool)
  | .readStatus r => some (0x01, r.number, r.body.isSome)
  | .unknownRequest kind number => some (kind, number, false)
  | .readTrack r => some (0x02, r.number, r.body.isSome)
  | .readSet r => some (0x03, r.number, r.body.isSome)
  | .readJunction r => some (0x04, r.number, r.body.isSome)
  | .readList r => some (0x05, r.number, r.body.isSome)
  | .holdSlot r => some (0x06, r.number, r.body.isSome)
  | .releaseSlot r => some (0x07, r.number, r.body.isSome)
  | .readConfig r => some (0x08, r.number, r.body.isSome)
  | .readConfigSlot r => some (0x08, r.number, r.body.isSome)
  | .writeConfig r => some (0x09, r.number, r.body.isSome)
  | .writeConfigSlot r => some (0x09, r.number, r.body.isSome)
  | .setGate r => some (0x0A, r.number, r.body.isSome)
  | .setEnables r => some (0x0B, r.number, r.body.isSome)
  | .clearFlags r => some (0x0C, r.number, r.body.isSome)
  | .clearFault r => some (0x0D, r.number, r.body.isSome)
  | .rule r => some (0x0E, r.number, r.body.isSome)
  | .tag r => some (0x0F, r.number, r.body.isSome)
  | .untag r => some (0x10, r.number, r.body.isSome)
  | .clearJunction r => some (0x11, r.number, r.body.isSome)
  | .restart r => some (0x12, r.number, r.body.isSome)
  | .commitConfig r => some (0x13, r.number, r.body.isSome)
  | .lockConfig r => some (0x14, r.number, r.body.isSome)
  | .coldStart => none
  | .radioReport _ => none
  | .frameTimeout _ => none
  | .takeReport => none
  | .takeHandOn => none
  | .handOnArrival _ => none
  | .stallLimit => none
  | .phaseStatus _ => none
  | .mirrorStale _ => none
  | .occupancy _ _ => none
  | .detectorCall _ _ _ => none
  | .ack _ _ _ => none
  | .ackTimeout _ => none
  | .recoveryDeadline _ => none
  | .windowDeadline _ => none
  | .averagingDeadline => none
  | .leakDeadline => none
  | .staleDeadline _ _ => none
  | .expectDeadline _ _ => none
  | .dwellDeadline _ _ => none
  | .referralDeadline => none
  | .storeWriteComplete _ => none
  | .supervisorFrameComplete => none
  | .portFrameComplete _ => none
  | .corridorClockTick => none
  | .markerByte _ => none
  | .abandonedFrame _ _ => none

/-! ### Frames that are abandoned (R186) -/

/-- A frame of a port is abandoned, and its receiver goes through some bytes again (R186): for its length or its check word, on the radio port as the report that
it is, and 5 ds after its marker where it is not complete. -/
inductive Abandons (s : State) (p : Port) (l : List HeardByte) : Instr → Prop where
  | length : Abandons s p l (.abandonedFrame p (.length l))
  | checkWord : Abandons s p l (.abandonedFrame p (.checkWord l))
  | report (radio : p = .radio) : Abandons s p l (.radioReport (.unfit l))
  | late (marker : Clock) (inFrame : s.receivers.at p = some marker) (due : s.due (some (after marker 5)) = true) :
      Abandons s p l (.frameTimeout { port := p, bytes := l })

/-- The commands that a command runs: itself, and, where it abandons a frame, those of the frames found whole among its bytes (R186). -/
inductive Runs : Instr → Instr → Prop where
  | self (c : Instr) : Runs c c
  | found (s : State) (p : Port) (l : List HeardByte) (c i : Instr) (abandons : Abandons s p l c) (age : Nat) (whole : (i, age) ∈ (goThrough p 0 l).1) :
      Runs c i

/-! ### Frames -/

/-- The parts of State that no work on a track, a request, a grant or a notice reaches: what a junction evaluates, what TM does with an item and
what the transmitters begin leaves them as they stand. -/
structure Steady where
  pending : List Instr
  clock : Clock
  image : Image
  receivers : Receivers
  slots : Vector Slot 16
  hold : Option SlotNo
  corridorQueue : List HandOn
  loads : Vector Load 4
  averagingDeadline : Option Clock
  leakDeadline : Clock
  marker : Bool
  stored : StoredImage
  condition : StoreCondition
  startPassed : Bool
  lock : Bool
  commit : Option Image
  lastCommit : Option Bool

def State.steady (s : State) : Steady :=
  { pending := s.pending, clock := s.clock, image := s.image, receivers := s.receivers, slots := s.slots, hold := s.hold
    corridorQueue := s.corridorQueue, loads := s.loads, averagingDeadline := s.averagingDeadline, leakDeadline := s.leakDeadline
    marker := s.marker, stored := s.stored, condition := s.condition, startPassed := s.startPassed, lock := s.lock
    commit := s.commit, lastCommit := s.lastCommit }

/-- Two tracks of one bus that differ at most in what a junction arbiter's notices write (R48, R50): the pin, the action received, the
borrowed time and the pending record's copies of these two. -/
abbrev Track.sameBus (t u : Track) : Prop :=
  u = { t with pinned := u.pinned, action := u.action, borrowed := u.borrowed, journey := u.journey } ∧
    (u.journey.map fun j => { j with action := .none, borrowed := 0 }) = (t.journey.map fun j => { j with action := .none, borrowed := 0 })

/-- What of a track TM's work on another track, and the notices of the arbiters, never change: all but the pin, the listed mark, the action, the
borrowed time and the pending record (R48–R50, R92). -/
def Track.ownFields (t : Track) : Track := { t with pinned := false, listed := none, action := .none, borrowed := 0, journey := none }

/-- Two contents of a way that are both invalid or of one bus. -/
def sameWay : Option Track → Option Track → Prop
  | none, none => True
  | some t, some u => t.sameBus u
  | none, some _ => False
  | some _, none => False

/-- The Track Tables of two states hold the same buses, with the same age bits. -/
def sameTable (s t : State) : Prop :=
  ∀ k : SetNo, sameWay (s.sets.get k).a (t.sets.get k).a ∧ sameWay (s.sets.get k).b (t.sets.get k).b ∧
    (t.sets.get k).age = (s.sets.get k).age

/-- The commands of one junction's mirror, orders, deadlines and detector calls (R109, R110, R118, R132, R142, R166). -/
inductive OfJunction (j : JunctionNo) : Instr → Prop where
  | phaseStatus (r : PhaseStatusFrame) (named : r.junction = j.val) : OfJunction j (.phaseStatus r)
  | mirrorStale : OfJunction j (.mirrorStale j)
  | detectorCall (approach presence : Nat) : OfJunction j (.detectorCall j.val approach presence)
  | ack (tag : Tag) (accepted : Bool) : OfJunction j (.ack j.val tag accepted)
  | ackTimeout : OfJunction j (.ackTimeout j)
  | recoveryDeadline : OfJunction j (.recoveryDeadline j)
  | windowDeadline : OfJunction j (.windowDeadline j)

/-! ### Resets, orders sent and reviews -/

/-- A junction before and after a warm restart or a junction clear, its budget window apart (R90, R98, R107, R109, R111, R118, R120, R132–R134). -/
abbrev Junction.resetTo (gate : Gate) (x y : Junction) : Prop :=
  y.list = [] ∧ y.gate = gate ∧ y.saved = none ∧ y.carry = none ∧ y.mirror = none ∧ y.stale = true ∧ y.staleDeadline = none ∧
    y.lastCall = none ∧ y.state = .idle ∧ y.faults = noFaults ∧ y.outstanding = none ∧ y.pendingOrder = none ∧ y.abandoned = none ∧
    y.grant = none ∧ y.sequenceBorrowed = 0 ∧ y.recoveryDeadline = none ∧
    (let tags := (x.outstanding.map (·.tag)).toList ++ (x.abandoned.map (·.1)).toList
     if x.state = .ordering ∨ x.state = .inForce then y.discard = tags ++ [x.tagCounter] ∧ y.tagCounter = x.tagCounter + 1
     else y.discard = tags ∧ y.tagCounter = x.tagCounter)

/-- The CANCELs that a reset of some junctions sends: one for each that is ORDERING or IN_FORCE (R134). -/
def State.resetCancels (s : State) (l : List JunctionNo) : List SentOrder :=
  l.filterMap fun j =>
    if (s.junction j).state = .ordering ∨ (s.junction j).state = .inForce then
      some { junction := j, tag := (s.junction j).tagCounter, order := .cancel }
    else none

/-- The signal transmitter takes orders (R186): a busy one lets them wait, behind those that wait already and up to eight; an idle one begins the first. -/
abbrev State.sends (s t : State) (os : List SentOrder) : Prop :=
  (∀ f, s.signalFrame = some f →
    t.signalFrame = some f ∧ t.signalWaiting = s.signalWaiting ++ os.take (8 - s.signalWaiting.length)) ∧
    (s.signalFrame = none →
      t.signalFrame = os.head? ∧ t.signalWaiting = s.signalWaiting ++ os.tail.take (8 - s.signalWaiting.length))

/-- The unit with the entries of a junction reviewed (R97). -/
def State.reviewed (s : State) (j : JunctionNo) : State :=
  s.setJunction j { s.junction j with list := (s.junction j).list.map (reviewEntry s j) }

/-- A junction whose gate is restored from its saved copy, where one is present (R100). -/
abbrev Junction.restored (x : Junction) : Junction := { x with gate := x.saved.getD x.gate, saved := none }

/-- A load after a comparison of its average with the thresholds (R138, R139). -/
def comparedLoad (img : Image) (x : Load) : Load :=
  match risenLevel img x.level x.average with
  | some l => { x with level := l, rises := setRise l x.rises }
  | none => { x with level := fallenLevel img x.level x.average }

/-- A load at the close of an averaging interval: the average of the samples, or the held one (R137). -/
def closedLoad (x : Load) : Load :=
  if x.count = 0 then x else { x with average := x.sum / x.count, sum := 0, count := 0 }

/-! ### Predictions and withdrawals -/

/-- What a prediction for a bus at `D` with speed `sp` at a report time, with a deviation and a route group, writes into its track apart from the ETA
(R82–R86). -/
abbrev Image.writesTimes (img : Image) (a : ApproachNo) (m : Times) (D sp : Nat) (time : Clock) (deviation : Option Int) (g : GroupNo) (u : Track) :
    Prop :=
  let L := clampDs (deviation.getD 0 + m.delta - m.nominal)
  u.approach = some a ∧ u.distance = D ∧ u.speed = sp ∧ u.reach.val = m.reach % 8 ∧ u.reportTime = time ∧ u.deviation = deviation ∧
    u.nominal = min 48000 m.nominal ∧ u.lateness = L ∧ u.cls = classify img L ∧
    u.tier = min (img.classes.get (classIndex u.cls)) (img.groups.get g)

/-- The same, with the ETA present and kept as the last ETA (R80, R86). -/
abbrev Image.writesEta (img : Image) (a : ApproachNo) (m : Times) (D sp : Nat) (time : Clock) (deviation : Option Int) (g : GroupNo) (u : Track) :
    Prop :=
  img.writesTimes a m D sp time deviation g u ∧ u.eta = some (after time m.delta) ∧ u.lastEta = u.eta

/-- A POSITION of a bus on its approach that AU holds, with TM free and the approach still enabled: the report, the place of its track and the track as it
stands (R66, R151). -/
abbrev State.holdsPosition (s : State) (f : Referral) (p : Place) (t : Track) (r : Report) (D sp : Nat) (dev : Option Int) : Prop :=
  s.referral = some f ∧ s.stall = none ∧ s.lookup f.vehicle = some p ∧ s.track p = some t ∧ t.referralOpen = true ∧ t.state = .approaching ∧
    t.approach = some r.approach ∧ s.image.enabled r.approach = true ∧ r.body = .position D sp dev ∧ 1 ≤ D ∧
    s.due (some (after r.stamp s.image.staleTime)) = false

/-- TM, free and with no hand-on waiting, takes the report of a slot (R32). -/
abbrev State.picks (s : State) (k : SlotNo) (r : Report) : Prop :=
  s.stall = none ∧ s.corridorQueue = [] ∧ s.chosenSlot = some k ∧ (s.slots.get k).report = some r

/-- The report that TM takes is one of an enabled approach, for a track without an open referral that has seen no later one (R44 tests 1 to 4). -/
abbrev State.takes (s : State) (k : SlotNo) (r : Report) (p : Place) (t : Track) : Prop :=
  s.picks k r ∧ s.image.enabled r.approach = true ∧ s.lookup r.vehicle = some p ∧ s.track p = some t ∧ t.referralOpen = false ∧
    ∀ seen, t.lastSeen = some seen → earlier r.stamp seen = false

/-- A track's deviation after a report, which may carry one (R24, R44). -/
def deviationAfter (old : Option Int) : Option Int → Option Int
  | none => old
  | some d => some (deviationDs d)

/-- The first prediction of a CHECK-IN's approach raises no anomaly, and its stale deadline is still to come (R52, R71–R81). -/
abbrev State.beginsWell (s : State) (r : Report) : Prop :=
  ∃ route D sp dev, r.body = .checkIn route D sp dev ∧ 1 ≤ D ∧ D ≤ boundary (s.image.reachesInUse r.approach) 0 ∧
    (predictTimes (s.image.reachesInUse r.approach) (s.image.approach r.approach).trust { lastDeparted := none, dwellStop := none, stopArrive := none } none
      none D sp r.stamp).delta ≤ s.image.horizon ∧ s.due (some (after r.stamp s.image.staleTime)) = false

/-- The approach of a CHECK-IN has begun on the track of a place (R52, R86). -/
abbrev State.hasBegun (s t : State) (p : Place) (r : Report) (vehicle : Nat) (g : GroupNo) (old : Option Int) : Prop :=
  ∀ route D sp dev, r.body = .checkIn route D sp dev →
    let m := predictTimes (s.image.reachesInUse r.approach) (s.image.approach r.approach).trust
      { lastDeparted := none, dwellStop := none, stopArrive := none } none none D sp r.stamp
    ∃ u, t.track p = some u ∧ u.vehicle = vehicle ∧ u.group = g ∧ u.state = .approaching ∧ u.lastSeen = some r.stamp ∧
      u.staleDeadline = some (after r.stamp s.image.staleTime) ∧ u.lastDeparted = none ∧ u.dwellStop = none ∧ u.journey = none ∧ u.expectDeadline = none ∧
      s.image.writesEta r.approach m D sp r.stamp (deviationAfter old dev) g u

/-- The work in hand of a stall raises no anomaly, and forms no deadline that has passed. -/
abbrev State.canComplete (s : State) (x : Stall) : Prop :=
  match x.work with
  | .invalidate _ => True
  | .allocateHandOn h _ link => s.due (some (after h.stamp (link + s.image.expectMargin))) = false
  | .allocateReport r _ => s.beginsWell r
  | .startApproach r => s.beginsWell r

/-- TM has completed the work in hand of a stall, and is free (R61). -/
abbrev State.completes (s t : State) (x : Stall) : Prop :=
  t.stall = none ∧ t.waiting = [] ∧
    match x.work with
    | .invalidate _ => t.track x.place = none
    | .allocateHandOn h g link =>
      (t.sets.get x.place.set).age = otherWay (s.sets.get x.place.set).age ∧
        ∃ u, t.track x.place = some u ∧ u.vehicle = h.vehicle ∧ u.route = h.route ∧ u.group = g ∧ u.state = .expected ∧ u.approach = none ∧
          u.deviation = some h.deviation ∧ u.expectDeadline = some (after h.stamp (link + s.image.expectMargin)) ∧ u.journey = none
    | .allocateReport r g =>
      (t.sets.get x.place.set).age = otherWay (s.sets.get x.place.set).age ∧ s.hasBegun t x.place r r.vehicle g none
    | .startApproach r => ∀ t0, s.track x.place = some t0 → s.hasBegun t x.place r t0.vehicle t0.group t0.deviation

/-- The unit with the report of a slot taken (R32). -/
def State.emptied (s : State) (k : SlotNo) : State :=
  { s with slots := s.slots.set k { s.slots.get k with code := .empty, report := none } }

/-- A report has acted on its track with a prediction at distance `D` (R44, R86): the track is of the same bus, seen at the report's stamp, with the times of the
prediction; every other track keeps its own fields, and of the rest of the unit only the slot, the junctions and what they send may have changed. -/
abbrev State.predicted (s v : State) (k : SlotNo) (r : Report) (p : Place) (t u : Track) (m : Times) (D sp : Nat) (deviation : Option Int) : Prop :=
  exec .takeReport s = .next v ∧ v.track p = some u ∧ u.vehicle = t.vehicle ∧ u.route = t.route ∧ u.group = t.group ∧ u.lastSeen = some r.stamp ∧
    u.staleDeadline = some (after r.stamp s.image.staleTime) ∧ s.image.writesEta r.approach m D sp r.stamp deviation t.group u ∧
    v.slots = (s.emptied k).slots ∧ v.steady = { s.steady with slots := v.slots } ∧ v.stall = none ∧
    ∀ q : Place, q ≠ p → (v.track q).map Track.ownFields = (s.track q).map Track.ownFields

/-- The CHECK-IN of a slot has been taken, and a way of its set allocated to its bus, for an APPROACHING track that has started its approach with its first
prediction (R41, R45, R47, R52). -/
abbrev State.checksIn (s t : State) (k : SlotNo) (r : Report) (w : Way) (route D sp : Nat) (dev : Option Int) (g : GroupNo) (m : Times) : Prop :=
  let n := (placeOf r.vehicle w).set
  exec .takeReport s = .next t ∧ (t.sets.get n).age = otherWay (s.sets.get n).age ∧ t.slots = (s.emptied k).slots ∧
    t.steady = { s.steady with slots := t.slots } ∧ t.stall = none ∧
    ∃ u, t.track (placeOf r.vehicle w) = some u ∧ u.vehicle = r.vehicle ∧ u.route = route ∧ u.group = g ∧ u.state = .approaching ∧
      u.lastSeen = some r.stamp ∧ u.staleDeadline = some (after r.stamp s.image.staleTime) ∧ u.lastDeparted = none ∧ u.dwellStop = none ∧
      u.stopArrive = none ∧ u.journey = none ∧ u.expectDeadline = none ∧ u.referralOpen = false ∧ u.superseded = 0 ∧ u.borrowed = 0 ∧
      s.image.writesEta r.approach m D sp r.stamp (dev.map deviationDs) g u

/-- A CHECK-IN starts an approach (R51–R53): on a track that is EXPECTED or CLEARED, or on one on another approach. -/
abbrev Track.startsApproach (t : Track) (a : ApproachNo) : Prop :=
  t.state = .expected ∨ t.state = .cleared ∨ (t.state = .approaching ∨ t.state = .dwelling) ∧ ∃ b, t.approach = some b ∧ b ≠ a

/-- The listed request of a track is withdrawn as LOST (R94, R160, R162): a GRANTED one counts a phantom against its approach, and at the threshold the counts return
to 0 under the OVER flag. -/
abbrev State.losesRequest (s v : State) (j : JunctionNo) (vehicle : Nat) (x : Entry) : Prop :=
  let old := s.reliability.get x.approach
  (x.state ≠ .granted → v.reliability = s.reliability) ∧
    (x.state = .granted → old.phantoms + 1 < s.image.phantomThreshold →
      v.reliability = s.reliability.set x.approach { old with phantoms := old.phantoms + 1 }) ∧
    (x.state = .granted → s.image.phantomThreshold ≤ old.phantoms + 1 →
      v.reliability = s.reliability.set x.approach { old with
        phantoms := 0, secondary := 0, overFlag := true, fault := some { vehicle := vehicle, junction := j, time := s.clock } })

/-- A held POSITION acts at its return, at distance `D` (R156): the track of the place is seen at the report's stamp, with the times of its prediction and,
where `present`, its ETA. Without an ETA it has no listed request (R49). -/
abbrev State.positionReturned (s v : State) (p : Place) (t : Track) (r : Report) (D sp : Nat) (dev : Option Int) (present : Bool) : Prop :=
  let f : StopFields := { lastDeparted := t.lastDeparted, dwellStop := t.dwellStop, stopArrive := t.stopArrive }
  let m := predictTimes (s.image.reachesInUse r.approach) (s.image.approach r.approach).trust f none none D sp r.stamp
  let deviation := match dev with
    | none => t.deviation
    | some d => some (deviationDs d)
  1 ≤ D → D ≤ boundary (s.image.reachesInUse r.approach) 0 → (present = true → m.delta ≤ s.image.horizon) →
  ∃ u, v.track p = some u ∧ u.vehicle = t.vehicle ∧ u.state = .approaching ∧ u.referralOpen = false ∧ u.lastSeen = some r.stamp ∧
    u.staleDeadline = some (after r.stamp s.image.staleTime) ∧ s.image.writesTimes r.approach m D sp r.stamp deviation t.group u ∧
    (if present = true then u.eta = some (after r.stamp m.delta) ∧ u.lastEta = u.eta else u.eta = none ∧ u.lastEta = t.lastEta ∧ u.listed = none)

/-- A STOP DEPART of a bus on its approach that AU holds at the distance of its stop, with TM free and the approach enabled (R66, R151). -/
abbrev State.holdsDeparture (s : State) (f : Referral) (p : Place) (t : Track) (r : Report) (stop : Nat) (dev : Option Int) : Prop :=
  f.held = .report r false none ∧ r.body = .stopDepart stop dev ∧ s.stall = none ∧ s.lookup f.vehicle = some p ∧ s.track p = some t ∧
    t.referralOpen = true ∧ (t.state = .approaching ∨ t.state = .dwelling) ∧ t.approach = some r.approach ∧ s.image.enabled r.approach = true ∧
    s.due (some (after r.stamp s.image.staleTime)) = false

/-- That STOP DEPART completes at its return without an ETA (R54, R154, R156): at the distance of its stop in the image as it stands. -/
abbrev State.departureReturned (s v : State) (p : Place) (t : Track) (r : Report) (stop : Nat) (dev : Option Int) : Prop :=
  let reaches := s.image.reachesInUse r.approach
  let D := boundary reaches (stop + 1)
  let m := predictTimes reaches (s.image.approach r.approach).trust { lastDeparted := some stop, dwellStop := none, stopArrive := none } none none D 0 r.stamp
  1 ≤ D →
  ∃ u, v.track p = some u ∧ u.vehicle = t.vehicle ∧ u.state = .approaching ∧ u.referralOpen = false ∧ u.lastDeparted = some stop ∧ u.dwellStop = none ∧
    u.stopArrive = none ∧ u.dwellDeadline = none ∧ u.lastSeen = some r.stamp ∧ u.staleDeadline = some (after r.stamp s.image.staleTime) ∧
    s.image.writesTimes r.approach m D 0 r.stamp (deviationAfter t.deviation dev) t.group u ∧ u.eta = none ∧ u.lastEta = t.lastEta ∧ u.listed = none

/-- A held report returned with a substituted distance of 0 is the passage of its track (R55, R60, R155). -/
abbrev State.passesAt (s v : State) (p : Place) (t : Track) (r : Report) : Prop :=
  ∃ u, v.track p = some u ∧ u.vehicle = t.vehicle ∧ u.state = .cleared ∧ u.approach = t.approach ∧ u.referralOpen = false ∧ u.distance = 0 ∧ u.eta = none ∧
    u.dwellStop = none ∧ u.dwellDeadline = none ∧ u.listed = none ∧ u.lastSeen = some r.stamp ∧
    u.staleDeadline = some (after r.stamp s.image.staleTime) ∧
    u.journey = ((s.image.approach r.approach).junction.map fun j =>
      { vehicle := t.vehicle, route := t.route, junction := j, approach := r.approach, firstListed := t.firstListed, firstEta := t.firstEta,
        lastEta := t.lastEta.getD r.stamp, passTime := r.stamp, action := t.action, borrowed := t.borrowed, cls := t.cls })

/-- A dwelling bus departs from its stop at a clock value, as on a STOP DEPART that names the stop (R54, R59, R87, R154): the track is APPROACHING, at the
stop with speed 0, with the times of its prediction. Where that would raise HORIZON nothing is said. -/
abbrev State.departs (s v : State) (p : Place) (t : Track) (a : ApproachNo) (stop : Nat) (time : Clock) : Prop :=
  let reaches := s.image.reachesInUse a
  let D := boundary reaches (stop + 1)
  let m := predictTimes reaches (s.image.approach a).trust { lastDeparted := some stop, dwellStop := none, stopArrive := none } none none D 0 time
  1 ≤ D → m.delta ≤ s.image.horizon → s.due (some (after time s.image.staleTime)) = false →
  ∃ u, v.track p = some u ∧ u.vehicle = t.vehicle ∧ u.state = .approaching ∧ u.lastDeparted = some stop ∧ u.dwellStop = none ∧
    u.stopArrive = none ∧ u.dwellDeadline = none ∧ u.lastSeen = some time ∧ u.staleDeadline = some (after time s.image.staleTime) ∧
    s.image.writesEta a m D 0 time t.deviation t.group u

/-- The listed requests of the tracks on an approach are withdrawn, and no phantom is counted (R21): the tracks stay, unlisted and unpinned, and no
entry is left of them. -/
abbrev State.withdraws (s v : State) (a : ApproachNo) : Prop :=
  v.reliability = s.reliability ∧
    ∀ (p : Place) (t : Track) (j : JunctionNo), s.track p = some t → t.approach = some a → t.listed = some j →
      (∃ u, v.track p = some u ∧ u.vehicle = t.vehicle ∧ u.approach = some a ∧ u.listed = none ∧ u.pinned = false) ∧
        ∀ x, findEntry t.vehicle (s.junction j).list = some x → x.way = p.way → findEntry t.vehicle (v.junction j).list = none

/-! ### Evaluations and grants -/

/-- An IDLE junction with a fresh mirror whose one entry an evaluation judges EXTEND: the entry is admissible, its bus phase green, and the end of the green too
early for it by a time that the phase and the budget allow (R96, R103, R112, R114). -/
abbrev State.extendable (s : State) (j : JunctionNo) (m : Mirror) (x : Entry) : Prop :=
  let y := s.junction j
  let ge := after m.receipt m.remaining
  let due := after x.eta s.image.clearMargin
  s.present j = true ∧ y.state = .idle ∧ y.mirror = some m ∧ y.stale = false ∧ y.carry = none ∧ y.grant = none ∧ y.outstanding = none ∧
    y.list = [x] ∧ claimsGrant x = false ∧ gateAdmits y.gate x.tier = true ∧ s.tierFloor j ≤ x.tier ∧
    ((s.reliability.get x.approach).tagged = false ∨ x.confirmed = true) ∧ x.suspended = false ∧ x.referred = false ∧
    m.phase = x.busPhase ∧ m.interval = .green ∧ later x.eta s.clock = true ∧ later (m.receipt - BitVec.ofNat 32 m.elapsed) x.eta = false ∧
    atOrAfter ge due = false ∧ elapsed due ge ≤ (s.image.phase j x.busPhase).maxExtension ∧ elapsed due ge ≤ s.budgetLeft j

/-- The grant of that entry has begun (R99, R117, R121): the EXTEND is sent, the gate saved and closed, the entry GRANTED and the grant record formed. -/
abbrev State.beginsExtension (s t : State) (j : JunctionNo) (m : Mirror) (x : Entry) : Prop :=
  let y := s.junction j
  let ge := after m.receipt m.remaining
  let amount := elapsed (after x.eta s.image.clearMargin) ge
  (t.junction j).state = .ordering ∧ (t.junction j).saved = some y.gate ∧ (t.junction j).sequenceBorrowed = 0 ∧
    (t.junction j).gate = { y.gate with m := true, u := y.gate.u || (y.gate.mode == .split && decide (y.gate.tu ≤ x.tier)) } ∧
    (t.junction j).outstanding =
      some { order := .extend x.busPhase amount, tag := y.tagCounter, deadline := after s.clock 20, ofGrant := true } ∧
    (t.junction j).tagCounter = y.tagCounter + 1 ∧
    s.sends t [{ junction := j, tag := y.tagCounter, order := .extend x.busPhase amount }] ∧
    (t.junction j).list = [{ x with state := .granted, hold := none, verdict := none }] ∧
    ∃ g, (t.junction j).grant = some g ∧ g.holder = some { vehicle := x.vehicle, way := x.way } ∧ g.busPhase = x.busPhase ∧ g.kind = .extend ∧
      g.windowStart = m.receipt - BitVec.ofNat 32 m.elapsed ∧ g.bound = after ge amount ∧ g.plannedEnd = some ge ∧ g.extensionInForce = 0 ∧
      g.cut = 0 ∧ g.cutCharged = 0 ∧ g.extensionCharged = 0 ∧ g.closing = false

/-- An order of a junction's grant is sent with the next tag, and becomes outstanding (R117). -/
abbrev State.sendsOrder (s t : State) (j : JunctionNo) (o : Order) : Prop :=
  let tag := (s.junction j).tagCounter
  (t.junction j).state = .ordering ∧
    (t.junction j).outstanding = some { order := o, tag := tag, deadline := after s.clock 20, ofGrant := true } ∧
    (t.junction j).tagCounter = tag + 1 ∧ s.sends t [{ junction := j, tag := tag, order := o }]

/-- The grant of an evaluation's winner has begun with an order (R99, R117, R121). -/
abbrev State.beginsGrant (s t : State) (j : JunctionNo) (z : Entry) (o : Order) : Prop :=
  let gate := (s.junction j).gate
  s.sendsOrder t j o ∧ (t.junction j).saved = some gate ∧ (t.junction j).sequenceBorrowed = 0 ∧ (t.junction j).carry = none ∧
    (t.junction j).gate = { gate with m := true, u := gate.u || (gate.mode == .split && decide (gate.tu ≤ z.tier)) } ∧
    (∃ w ∈ (t.junction j).list, w.vehicle = z.vehicle ∧ w.state = .granted ∧ w.hold = none ∧ w.verdict = none) ∧
    ∃ g, (t.junction j).grant = some g ∧ g.holder = some { vehicle := z.vehicle, way := z.way } ∧ g.busPhase = z.busPhase ∧
      g.kind = (if orderKind o = .early then .early else .extend) ∧ g.closing = false ∧ g.ending = none ∧ g.target = none

/-- The unit with an accepted PHASE STATUS in a junction's mirror (R109, R110), before its evaluation. -/
def State.mirrored (s : State) (j : JunctionNo) (m : Mirror) : State :=
  (s.hunt .signal).setJunction j { s.junction j with mirror := some m, stale := false, staleDeadline := some (after s.clock 30) }

/-- A grant has ended without refund and its sequence with it, and the junction recovers (R131, R132); nothing is said where the recovery length is 0. -/
abbrev State.endsGrant (s t : State) (j : JunctionNo) (g : Grant) (ending : Ending) : Prop :=
  let x := s.junction j
  let borrowed := g.cutCharged + g.extensionCharged
  let total := min 12000 (x.sequenceBorrowed + borrowed)
  let R := max s.image.recoveryMinimum ((total * s.image.recoveryRatio + 3) / 4)
  (s.image.enables.grantNotice.get j = true →
    t.carries { number := s.noticeCounter, body := .grantEnd j g.lastHolder.vehicle g.busPhase ending borrowed }) ∧
    (0 < R →
      (t.junction j).grant = none ∧ (t.junction j).used = x.used ∧ (t.junction j).sequenceBorrowed = total ∧ (t.junction j).saved = none ∧
        (t.junction j).gate = x.saved.getD x.gate ∧ (∀ y ∈ (t.junction j).list, claimsGrant y = false) ∧ (t.junction j).state = .recovery ∧
        (t.junction j).recoveryDeadline = some (after s.clock R) ∧ t.signalFrame = s.signalFrame ∧ t.signalWaiting = s.signalWaiting)

/-! ### Interrupted writes of the store -/

/-- Every element of a table is that of one of two others. -/
abbrev mixesTable {α : Type} {n : Nat} (x a b : Vector α n) : Prop := ∀ k : Fin n, x.get k = a.get k ∨ x.get k = b.get k

/-- Every entry of an image is that of one of two others. -/
abbrev Image.mixes (x a b : Image) : Prop :=
  mixesTable x.junctions a.junctions b.junctions ∧ mixesTable x.phases a.phases b.phases ∧ mixesTable x.gates a.gates b.gates ∧
    mixesTable x.approaches a.approaches b.approaches ∧ mixesTable x.reaches a.reaches b.reaches ∧ mixesTable x.entries a.entries b.entries ∧
    mixesTable x.routes a.routes b.routes ∧ mixesTable x.groups a.groups b.groups ∧ mixesTable x.classes a.classes b.classes ∧
    mixesTable x.levels a.levels b.levels ∧ (x.enables = a.enables ∨ x.enables = b.enables) ∧ mixesTable x.parameters a.parameters b.parameters

/-! ### Invariants -/

/-- A value of a field that has a range. -/
abbrev within (lo hi x : Nat) : Prop := lo ≤ x ∧ x ≤ hi

/-- The junctions, phases, gates and approaches of an image lie in the ranges of R5–R8. -/
abbrev Image.ringsInRange (img : Image) : Prop :=
  (∀ j : JunctionNo, within 2 8 (img.junction j).phaseCount ∧ within 2 3 (img.gates.get j).tu) ∧
    (∀ k : Fin 32, within 50 1200 (img.phases.get k).split ∧ within 40 (img.phases.get k).split (img.phases.get k).minGreen ∧
      within 30 120 (img.phases.get k).clearance ∧ within 0 600 (img.phases.get k).maxExtension) ∧
    ∀ a : ApproachNo, within 1 8 (img.approach a).reachCount ∧ within 0 4 (img.approach a).trust ∧
      within 0 3 (img.approach a).secondaryLimit

/-- The reaches, entries, routes, groups, classes and levels of an image lie in the ranges of R9, R11–R13 and R15. -/
abbrev Image.tablesInRange (img : Image) : Prop :=
  (∀ k : Fin 128, within 1 2000 (img.reaches.get k).length ∧ within 10 250 (img.reaches.get k).cruise ∧
    within 0 1200 (img.reaches.get k).fixedDwell) ∧
    (∀ x : EntryId, within 0 6000 (img.entries.get x).linkTime) ∧
    (∀ k : Fin 16, within 1 4095 (img.routes.get k).low ∧ within 1 4095 (img.routes.get k).high) ∧
    (∀ g : GroupNo, within 0 3 (img.groups.get g)) ∧
    ∀ k : Fin 4, within 0 3 (img.classes.get k) ∧ within 0 6000 (img.levels.get k).cap ∧ within 1 4 (img.levels.get k).floor

/-- The range of each unit parameter, by its number (R16); the intake order's codes are 0 and 1 (R189). -/
def parameterRange (n : Fin 23) : Nat × Nat :=
  [(300, 6000), (0, 100), (10, 300), (0, 300), (0, 200), (100, 1200), (300, 3000), (0, 3000), (10, 200), (600, 18000), (0, 8), (0, 600),
    (100, 36000), (1, 255), (0, 600), (1, 101), (1, 101), (1, 101), (0, 20), (0, 1), (1, 6000), (1, 6000), (1, 3000)].getD n.val (0, 0)

/-- Every entry of an image lies in the ranges its rule gives (R5–R9, R11–R13, R15–R17). -/
abbrev Image.inRange (img : Image) : Prop :=
  img.ringsInRange ∧ img.tablesInRange ∧ ∀ n : Fin 23, within (parameterRange n).1 (parameterRange n).2 (img.parameter n)

/-- Every image of the unit lies in its ranges: the working image, the snapshot of a running commit, and a stored image that passes its check. -/
abbrev State.configInRange (s : State) : Prop :=
  s.image.inRange ∧ (∀ snapshot, s.commit = some snapshot → snapshot.inRange) ∧ (s.stored.passes = true → s.stored.tables.inRange)

/-- The level thresholds as the ordering clamp leaves them (R18). -/
abbrev Image.ordered (img : Image) : Prop :=
  (img.thresholdMid = 101 ∨ img.thresholdLo < img.thresholdMid) ∧ (img.thresholdHi = 101 ∨ img.thresholdMid < img.thresholdHi)

/-- An image that holds the structural conditions of R20 and whose thresholds are ordered (R18). -/
abbrev Image.sound (img : Image) : Prop := img.consistent = true ∧ img.ordered

/-- Every image of the unit is sound: the working image, the snapshot of a running commit, and a stored image that passes its check (R20, R180). -/
abbrev State.configSound (s : State) : Prop :=
  s.image.sound ∧ (∀ snapshot, s.commit = some snapshot → snapshot.sound) ∧ (s.stored.passes = true → s.stored.tables.sound)

/-- Whether no two entries of a list are for one vehicle (R89). -/
def distinctVehicles (l : List Entry) : Bool := decide (l.map (·.vehicle)).Nodup

/-- Every queue and list of the unit is within the length its rule gives: notices (R178), BUSY answers (R170), hand-ons (R63, R65), orders
(R186), requests (R89) and discarded tags (R134). -/
abbrev State.withinBounds (s : State) : Prop :=
  s.noticeQueue.length ≤ 16 ∧ s.busyList.length ≤ 4 ∧ s.corridorQueue.length ≤ 4 ∧ s.corridorWaiting.length ≤ 4 ∧
    s.signalWaiting.length ≤ 8 ∧
    ∀ j : JunctionNo, (s.junction j).list.length ≤ 12 ∧ distinctVehicles (s.junction j).list = true ∧ (s.junction j).discard.length ≤ 3

/-- Every Request List is in the list order (R89), but for the two entries of an open CONFLICT referral, which keep their places (R106). -/
abbrev State.listsSorted (s : State) : Prop :=
  ∀ j : JunctionNo, ((s.junction j).list.filter fun x => !s.keepsPlace j x.vehicle).Pairwise fun x y => sortsBefore x y = true

/-- The times of what AU holds. -/
def Referral.times (f : Referral) : List Clock :=
  match f.held with
  | .report r _ _ => [f.opening, r.stamp]
  | .dwell => [f.opening]
  | .redwell _ => [f.opening]
  | .conflict _ _ => [f.opening]

def Waiting.times : Waiting → List Clock
  | .returned m => m.referral.times
  | .expiry _ _ _ _ time => [time]

def Work.times : Work → List Clock
  | .allocateReport r _ => [r.stamp]
  | .allocateHandOn _ _ _ => []
  | .invalidate _ => []
  | .startApproach r => [r.stamp]

/-- The ETAs of the listed requests, and the times from which a step may form one: those of the reports in the slots, of what AU holds, of what waits on a stall and
of the work in hand. -/
def State.etaTimes (s : State) : List Clock :=
  (List.finRange 4).flatMap (fun j => (s.junction j).list.map (·.eta)) ++
    (List.finRange 16).flatMap (fun k => ((s.slots.get k).report.map (·.stamp)).toList) ++ (s.referral.map Referral.times).getD [] ++
    s.waiting.flatMap Waiting.times ++ (s.stall.map fun x => x.work.times).getD []

/-- Those times lie near the clock, and the horizon is short, so that the clock comparison orders any two of the ETAs (§7.2). -/
abbrev State.etasNear (s : State) : Prop :=
  (s.etaTimes.all fun c => decide ((c + 0x20000000 - s.clock).toNat < 0x40000000)) = true ∧ s.image.horizon < 2 ^ 28

/-- A vehicle may be held at a place: the place lies in its set, and the other way of the set does not hold it (R40). -/
abbrev State.admitsAt (s : State) (p : Place) (vehicle : Nat) : Prop :=
  vehicle % 32 = p.set.val ∧ (s.track { p with way := otherWay p.way }).map (·.vehicle) ≠ some vehicle

/-- The vehicle a stalled work is to allocate (R61). -/
def Work.allocates : Work → Option Nat
  | .allocateReport r _ => some r.vehicle
  | .allocateHandOn h _ _ => some h.vehicle
  | .invalidate _ => none
  | .startApproach _ => none

/-- No two valid tracks hold one vehicle, the track of vehicle v lies in set v mod 32 (R40), and a stalled allocation will keep it so. -/
abbrev State.tablePlaced (s : State) : Prop :=
  (∀ (k : SetNo) (w : Way) (t : Track), s.track { set := k, way := w } = some t → s.admitsAt { set := k, way := w } t.vehicle) ∧
    ∀ (x : Stall) (v : Nat), s.stall = some x → x.work.allocates = some v → s.admitsAt x.place v

/-- Only a track that is listed at a junction is pinned (R48). -/
abbrev State.pinsListed (s : State) : Prop := ∀ (p : Place) (t : Track), s.track p = some t → t.listed = none → t.pinned = false

/-- A FROZEN junction with nothing of a grant left: no grant record, and no pending order but the CANCEL that a late ACCEPTED brings (R118, R133). -/
abbrev State.frozenQuiet (s : State) (j : JunctionNo) : Prop :=
  (s.junction j).state = .frozen ∧ (s.junction j).grant = none ∧
    ((s.junction j).pendingOrder = none ∨ (s.junction j).pendingOrder = some { order := .cancel, ofGrant := false })

/-- The orders of a junction other than CANCELs that the signal transmitter sends or has waiting (R186). -/
def State.grantOrders (s : State) (j : JunctionNo) : List SentOrder :=
  (s.signalFrame.toList ++ s.signalWaiting).filter fun o => decide (o.junction = j ∧ o.order ≠ .cancel)

/-- A junction has sent no order but a CANCEL of no grant (R118, R133): its outstanding order is such a CANCEL or the order outstanding before, and no other order has
joined those on their way to the controller. -/
abbrev State.sendsCancelsAlone (s t : State) (j : JunctionNo) : Prop :=
  (∀ o, (t.junction j).outstanding = some o →
    o.order = .cancel ∧ o.ofGrant = false ∨
      ∃ o', (s.junction j).outstanding = some o' ∧ o'.order = o.order ∧ o'.tag = o.tag ∧ o'.deadline = o.deadline) ∧
    t.grantOrders j <:+ s.grantOrders j

end Sys2Proof.Machine
end

