-- ==== Sys2Proof/Certificates/Slice0/Obligations.lean ====
section
/-!
DEFINITION. Certificates/Slice0/Obligations.lean: the statements about the unit. Each docstring names the rules it formalises; where a clause
rests on a choice of the model it names the log entry.
-/

open Sys2Proof Sys2Proof.Machine

/-! ### The queue, the clock and whole-machine rules -/

/-- One step takes the command at the front of the queue (logs 1, 14). -/
def Obligations.StepRunsTheFrontCommand : Prop :=
  ∀ (c : Instr) (rest : List Instr) (s : State), step { s with pending := c :: rest } = exec c { s with pending := rest }

/-- No rule describes a state in which the unit takes no further event, so every step goes on; and no command reaches the queue of commands
that wait. The queue is the model's own (log 1); that an empty one leaves the unit idle is log 14, and that a cold start leaves it is log 2. -/
def Obligations.StepsGoOnAndLeaveTheQueue : Prop :=
  (∀ s : State, Goes s) ∧
    ∀ (c : Instr) (s t : State), exec c s = .next t → t.pending = s.pending

/-- R1: the clock advances by one at its tick, is 0 at a cold start, and is moved by nothing else, a warm restart and a junction clear included. A tick does nothing more but where
a stalled JOURNEY notice finds room that the moment before it has left (R62, log 5). -/
def Obligations.ClockMovesByTickAndColdStart : Prop :=
  (∀ s : State, (∃ t, exec .corridorClockTick s = .next t ∧ t.clock = s.clock + 1) ∧
    (s.stall = none ∨ 16 ≤ s.noticeQueue.length → exec .corridorClockTick s = .next { s with clock := s.clock + 1 })) ∧
    (∀ s t : State, exec .coldStart s = .next t → t.clock = 0) ∧
    ∀ (c : Instr) (s t : State), c ≠ .corridorClockTick → c ≠ .coldStart → exec c s = .next t → t.clock = s.clock

/-- R2, R19, R172, R180–R184: the working image is changed by WRITE CONFIG, SET ENABLES and cold start alone, a warm restart and a commit leaving it as it
stands; the stored image and the last commit result at a store write's completion and a cold start alone; the start status at a cold start alone; the snapshot
of a running commit and the store condition at COMMIT CONFIG, its completion and a cold start alone. A command runs itself, and the frames found in one that it abandons (R186). -/
def Obligations.ImagesChangeByTheirCommandsAlone : Prop :=
  (∀ (c : Instr) (s t : State), (∀ r, ¬ Runs c (.writeConfig r)) → (∀ r, ¬ Runs c (.setEnables r)) → c ≠ .coldStart → exec c s = .next t →
     t.image = s.image) ∧
    ∀ (c : Instr) (s t : State), c ≠ .coldStart → exec c s = .next t →
      t.startPassed = s.startPassed ∧
        ((∀ ok, c ≠ .storeWriteComplete ok) →
          t.stored = s.stored ∧ t.lastCommit = s.lastCommit ∧
            ((∀ r, ¬ Runs c (.commitConfig r)) → t.commit = s.commit ∧ t.condition = s.condition))

/-- R26–R28, R30, R35–R38, R63, R135–R137, R139, R163, R170, R173: which commands alone may change an intake slot, the hold marker and the corridor queue, the
loads, the averaging deadline and the request marker. A command runs itself, and the frames found in one that it abandons (R186). -/
def Obligations.IntakeAndMonitorsChangeByTheirCommandsAlone : Prop :=
  (∀ (c : Instr) (s t : State), c ≠ .coldStart → (∀ r, ¬ Runs c (.restart r)) → exec c s = .next t →
     ((∀ f, ¬ Runs c (.radioReport f)) → c ≠ .takeReport → (∀ r, ¬ Runs c (.writeConfigSlot r)) → (∀ r, ¬ Runs c (.clearFlags r)) → t.slots = s.slots) ∧
       ((∀ r, ¬ Runs c (.holdSlot r)) → (∀ r, ¬ Runs c (.releaseSlot r)) → t.hold = s.hold) ∧
       ((∀ h, ¬ Runs c (.handOnArrival h)) → c ≠ .takeHandOn → t.corridorQueue = s.corridorQueue)) ∧
    ∀ (c : Instr) (s t : State), c ≠ .coldStart → exec c s = .next t →
      ((∀ r, ¬ Runs c (.restart r)) → (∀ j p, ¬ Runs c (.occupancy j p)) → c ≠ .averagingDeadline → (∀ r, ¬ Runs c (.clearFlags r)) → t.loads = s.loads) ∧
        ((∀ r, ¬ Runs c (.restart r)) → c ≠ .averagingDeadline → (∀ r, ¬ Runs c (.writeConfig r)) → t.averagingDeadline = s.averagingDeadline) ∧
        ((∀ i, Runs c i → requestOf i = none) → c ≠ .supervisorFrameComplete → t.marker = s.marker)

/-- R109, R110, R118, R132, R133, R142, R166: a command of one junction's mirror, orders, deadlines or detector calls leaves every other junction,
the buses in the Track Table, the reliability counters, the load, the intake and the corridor port as they stand. -/
def Obligations.JunctionCommandsLeaveTheRest : Prop :=
  ∀ (j : JunctionNo) (c : Instr) (s t : State), OfJunction j c → s.stall = none → s.linkSettled → exec c s = .next t →
    (∀ k : JunctionNo, k ≠ j → t.junction k = s.junction k) ∧ sameTable s t ∧ t.reliability = s.reliability ∧
      t.steady = { s.steady with receivers := t.receivers } ∧ t.corridorFrame = s.corridorFrame ∧
      t.corridorWaiting = s.corridorWaiting ∧ t.stall = none ∧ t.waiting = s.waiting ∧ t.replySlot = s.replySlot ∧
      t.busyList = s.busyList ∧ t.orderChoices = s.orderChoices

/-! ### Invariants -/

/-- R20: the working image, the snapshot of a running commit and a stored image that passes its check hold the structural conditions (and the ordering
of R18) at every step; a write that would break a condition is refused with INCONSISTENT; the built-in defaults hold them. -/
def Obligations.ConfigurationStaysSound : Prop :=
  (∀ s t : State, s.configSound → step s = .next t → t.configSound) ∧ builtInDefaults.sound ∧
    (∀ (s : State) (number : Byte) (w : ConfigWrite) (c : CheckedWrite), s.marker = false → fitsTable w.values = true →
      checkWrite w = some c → (s.lock && lockBars s.image c) = false → (applyWrite s.image c).consistent = false →
      exec (.writeConfig { number := number, body := some w }) s =
        .next ((s.hunt .supervisor).replied 0x09 number .inconsistent .empty)) ∧
    ∀ (s : State) (number : Byte) (g : Fin 4) (l : List Nat) (x : Enables), s.marker = false → l.length = groupSize g →
      writeGroup s.image.enables g l = some x → ({ s.image with enables := x } : Image).consistent = false →
      exec (.setEnables { number := number, body := some { group := g.val, switches := l } }) s =
        .next ((s.hunt .supervisor).replied 0x0B number .inconsistent .empty)

/-- R63, R65, R89, R92, R93, R106, R134, R170, R178, R186: every queue and list of the unit stays within the length its rule gives, and no two entries of a Request List
are for one vehicle. A Request List stays in its order, but for the two entries of an open conflict referral, as far as the ETAs and the times they are formed from lie near enough to the clock for the clock
comparison to order them: where others stand beside one of the two that is out of the order, and that the two take their positions when the referral ends, is log 57. An update of a listed bus
leaves the order of the others, and the whole order where the bus is one of those two, whose referral stays open: stated of a POSITION under a stale mirror or in AWAIT_RULING, at which no
evaluation follows. A post to a full list displaces the entry nearest the tail that claims no grant, where it sorts before that entry and before the tail: the displaced track is unlisted and unpinned. Otherwise
the list stands as it is, and the bus is not listed: stated of a POSITION of a bus that is not yet listed, under a stale mirror, at which no evaluation follows. -/
def Obligations.QueuesStayWithinBounds : Prop :=
  (∀ s t : State, s.withinBounds → step s = .next t → t.withinBounds) ∧
    (∀ s t : State, s.withinBounds → s.etasNear → s.listsSorted → step s = .next t → t.listsSorted) ∧
    (∀ (s : State) (k : SlotNo) (r : Report) (D sp : Nat) (dev : Option Int) (p : Place) (t : Track) (j : JunctionNo),
      s.takes k r p t → r.body = .position D sp dev → t.state = .approaching → t.approach = some r.approach →
      (s.image.approach r.approach).junction = some j → t.listed = none → (s.junction j).stale = true →
      let l := (s.junction j).list
      let reaches := s.image.reachesInUse r.approach
      let f : StopFields := { lastDeparted := t.lastDeparted, dwellStop := t.dwellStop, stopArrive := t.stopArrive }
      let m := predictTimes reaches (s.image.approach r.approach).trust f none none D sp r.stamp
      12 ≤ l.length → distinctVehicles l = true → findEntry t.vehicle l = none → 1 ≤ D → D ≤ boundary reaches 0 →
      D ≤ t.distance + s.image.reversalTolerance → m.delta ≤ s.image.horizon → s.due (some (after r.stamp s.image.staleTime)) = false →
      ∃ (v : State) (u : Track), s.predicted v k r p t u m D sp (deviationAfter t.deviation dev) ∧
        let x : Entry :=
          { vehicle := t.vehicle, way := p.way, approach := r.approach, busPhase := (s.image.approach r.approach).busPhase, tier := u.tier,
            cls := u.cls, eta := after r.stamp m.delta, suspended := m.suspended, firstListed := s.clock, confirmed := false, referred := false,
            state := .waiting, hold := none, verdict := none }
        let before (d : Entry) : Prop := sortsBefore x d = true ∧ ∀ z, l.getLast? = some z → sortsBefore x z = true
        (∀ (l₁ l₂ : List Entry) (d : Entry), l = l₁ ++ d :: l₂ → claimsGrant d = false → (∀ y ∈ l₂, claimsGrant y = true) →
          (1 ≤ u.tier → before d →
            ((v.junction j).list.map (·.vehicle)).Perm (t.vehicle :: (l₁ ++ l₂).map (·.vehicle)) ∧ u.listed = some j ∧
              ∀ ud, s.track (placeOf d.vehicle d.way) = some ud → ud.vehicle = d.vehicle → ud.listed = some j →
                v.track (placeOf d.vehicle d.way) = some { ud with listed := none, pinned := false }) ∧
            (¬ before d → v.junction j = s.junction j ∧ u.listed = none)) ∧
          (u.tier = 0 ∨ (∀ y ∈ l, claimsGrant y = true) → v.junction j = s.junction j ∧ u.listed = none)) ∧
    ∀ (s : State) (k : SlotNo) (r : Report) (D sp : Nat) (dev : Option Int) (p : Place) (t : Track) (j : JunctionNo),
      s.takes k r p t → r.body = .position D sp dev → t.state = .approaching → t.approach = some r.approach → t.listed = some j →
      (s.junction j).stale = true ∨ (s.junction j).state = .awaitRuling → findEntry t.vehicle (s.junction j).list ≠ none →
      let reaches := s.image.reachesInUse r.approach
      let f : StopFields := { lastDeparted := t.lastDeparted, dwellStop := t.dwellStop, stopArrive := t.stopArrive }
      let m := predictTimes reaches (s.image.approach r.approach).trust f none none D sp r.stamp
      1 ≤ D → D ≤ boundary reaches 0 → D ≤ t.distance + s.image.reversalTolerance → m.delta ≤ s.image.horizon →
      s.due (some (after r.stamp s.image.staleTime)) = false →
      ∃ (v : State) (u : Track), s.predicted v k r p t u m D sp (deviationAfter t.deviation dev) ∧
        let order (x : State) : List Nat := (x.junction j).list.map (·.vehicle)
        (1 ≤ u.tier →
          (order v).filter (fun n => n != t.vehicle) = (order s).filter (fun n => n != t.vehicle) ∧
            (s.keepsPlace j t.vehicle = true → order v = order s ∧ v.referral = s.referral ∧ (v.junction j).state = (s.junction j).state) ∧
            ∃ z ∈ (v.junction j).list, z.vehicle = t.vehicle ∧ z.tier = u.tier ∧ z.eta = after r.stamp m.delta ∧ z.suspended = m.suspended)

/-- R179: an idle transmitter never has a reply, a BUSY answer or a notice to send. -/
def Obligations.IdleTransmitterHasNothingToSend : Prop := ∀ s t : State, s.linkSettled → step s = .next t → t.linkSettled

/-- R40, R48: no two valid tracks ever hold one vehicle, and the track of vehicle v lies in set v mod 32; and a track is pinned only while it is listed. -/
def Obligations.TracksStayInTheirSets : Prop :=
  (∀ s t : State, s.tablePlaced → step s = .next t → t.tablePlaced) ∧ ∀ s t : State, s.pinsListed → step s = .next t → t.pinsListed

/-- R133: a FROZEN junction stays FROZEN, with no grant and no order but a CANCEL to send, until CLEAR FAULT, a junction clear (CLEAR JUNCTION, or the
JUNCTION write that takes the junction away), a restart or a cold start. Whatever it had outstanding, no EXTEND, EARLY or RELEASE becomes outstanding or reaches the signal transmitter. That
the CANCEL of a late ACCEPTED belongs to no grant is log 12. A command runs itself, and the frames found in one that it abandons (R186). -/
def Obligations.FrozenUntilCleared : Prop :=
  ∀ (j : JunctionNo) (c : Instr) (s t : State), s.frozenQuiet j → c ≠ .coldStart → (∀ r, ¬ Runs c (.restart r)) → (∀ r, ¬ Runs c (.clearFault r)) →
    (∀ r, ¬ Runs c (.clearJunction r)) →
    (∀ number count, ¬ Runs c (.writeConfig { number := number, body := some { index := j.val, values := .junction 0 count } })) →
    exec c s = .next t → t.frozenQuiet j ∧ s.sendsCancelsAlone t j

/-- The state right after reset, which is the model's choice of log 2, meets the invariants of the configuration (its conditions, its ranges), of the queues and their order, of the idle
transmitter and of the Track Table. -/
def Obligations.ResetMeetsTheInvariants : Prop :=
  State.reset.configSound ∧ State.reset.configInRange ∧ State.reset.withinBounds ∧ State.reset.etasNear ∧ State.reset.listsSorted ∧ State.reset.linkSettled ∧ State.reset.tablePlaced ∧
    State.reset.pinsListed

/-! ### The frame level (R185–R188) -/

/-- R185–R189: the frame that brings a well-formed command, received, is that command: no field of any layout is dropped or swapped. That the lists of CLEAR FLAGS and
CLEAR FAULT may be of any count, and that the value of a RULE takes two bytes, are the model's choices (logs 59, 38). -/
def Obligations.ReceiveOfEncodeIsTheCommand : Prop :=
  ∀ (i : Instr) (p : Port) (l : List Byte), i.wf = true → encodeFrame i = some (p, l) → receiveFrame p l = i

/-- R185: the CRC of the nine bytes that spell 123456789 is 29B1 in hexadecimal, and four frames written out by hand are read as the commands they stand for. -/
def Obligations.WrittenFramesAreRead : Prop :=
  crc [0x31, 0x32, 0x33, 0x34, 0x35, 0x36, 0x37, 0x38, 0x39] = 0x29B1 ∧
    handOnFrameContent .radio 0x02 [0x00, 0x27, 0x02, 0x02, 0x6C, 0x3C, 0x01, 0x00, 0x3C] =
      .radioReport (.report 39 2 (.position 620 60 (some 60))) ∧
    handOnFrameContent .signal 0x24 [0x01, 0x11, 0x00] = .ack 1 17 true ∧
    handOnFrameContent .corridor 0x30 [0x00, 0x27, 0x00, 0x0C, 0xFF, 0xFE, 0x02] =
      .handOnArrival { vehicle := 39, route := 12, deviation := -2, entry := 2 } ∧
    handOnFrameContent .supervisor 0x0E [0x05, 0x02, 0x00, 0x27, 0x01, 0x00] =
      .rule { number := 5, body := some { cls := 2, vehicle := 39, ruling := 1, value := none } }

/-- R65, R186: a marker puts a hunting receiver in frame, at the clock of the marker; 5 ds later, and not before, a frame not complete is abandoned. A receiver that abandons a frame goes
through the bytes behind its marker again: without a marker among them it hunts; at a marker it resumes there. Where the frame behind that marker is not complete it is in frame again
from that marker's arrival, or, 5 ds after it, resumes at the next byte, as it does where that frame's length or check word does not fit; and a frame found whole within its 5 ds is
handed on, as the command that it brings, before the receiver goes on behind it. Its stamp or receipt time is the clock value at which its last check byte arrived: a report and a hand-on are
those of that clock value, a mirror and a last detector call have it as their receipt time, and for every other frame it makes no difference. A frame discarded by its kind or body leaves it hunting. At the completion of a frame the signal and corridor transmitters
begin the order or hand-on that has waited longest, and are idle where none waits. That the bytes come with the command that abandons the frame, that a marker's byte inside a frame changes
nothing, that a frame can be given up at any time, and that one found whole acts at this event are the model's choices (logs 34, 35, 53). -/
def Obligations.FramesBeginAndEnd : Prop :=
  (∀ (p : Port) (s : State),
     let hunting : State := { s with receivers := s.receivers.put p none }
     (s.receivers.at p = none →
       exec (.markerByte p) s = .next { s with receivers := s.receivers.put p (some s.clock) } ∧
         ∀ l, exec (.frameTimeout { port := p, bytes := l }) s = .next s) ∧
       (∀ m, s.receivers.at p = some m →
         exec (.markerByte p) s = .next s ∧
           (s.due (some (after m 5)) = false → ∀ l, exec (.frameTimeout { port := p, bytes := l }) s = .next s)) ∧
       (∀ why : AbandonReason, why = .kind ∨ why = .body → exec (.abandonedFrame p why) s = .next hunting) ∧
       ∀ (l : List HeardByte) (c : Instr), Abandons s p l c →
         ((∀ b ∈ l, b.byte ≠ 0xC3) → exec c s = .next hunting) ∧
           ∀ (pre rest : List HeardByte) (marker : HeardByte), l = pre ++ marker :: rest → (∀ b ∈ pre, b.byte ≠ 0xC3) → marker.byte = 0xC3 →
             let resumes : Prop := exec c s = exec (.abandonedFrame p (.length rest)) s
             let incomplete : Prop :=
               (marker.age < 5 → exec c s = .next { s with receivers := s.receivers.put p (some (s.clock - BitVec.ofNat 32 marker.age)) }) ∧
                 (5 ≤ marker.age → resumes)
             (rest.length < 2 → incomplete) ∧
               (∀ (l1 l0 : Byte) (x : List Byte), rest.map (·.byte) = l1 :: l0 :: x →
                 let n := num2 l1 l0
                 (n = 0 ∨ 1024 < n → resumes) ∧ (1 ≤ n → n ≤ 1024 → x.length < n + 2 → incomplete) ∧
                   (n + 2 ≤ x.length → (x.drop n).take 2 ≠ byte2 (crc (l1 :: l0 :: x.take n)).toNat → resumes)) ∧
               ∀ (i : Instr) (bytes : List Byte) (heard post : List HeardByte), i.wf = true → encodeFrame i = some (p, bytes) →
                 rest = heard ++ post → heard.map (·.byte) = bytes →
                 (∀ last, heard.getLast? = some last → marker.age ≤ last.age + 5 → ∀ t, handOn i (s.clock - BitVec.ofNat 32 last.age) s = .next t →
                   exec c s = exec (.abandonedFrame p (.length post)) t) ∧
                   (∀ last, heard.getLast? = some last → last.age + 5 < marker.age → resumes)) ∧
    (∀ (i : Instr) (p : Port) (bytes : List Byte) (arrival : Clock) (s : State), i.wf = true → encodeFrame i = some (p, bytes) →
      handOn i s.clock s = exec i s ∧
        (p = .radio ∨ p = .corridor → ∀ t, exec i { s with clock := arrival } = .next t → handOn i arrival s = .next { t with clock := s.clock }) ∧
        ((∀ r, i ≠ .phaseStatus r) → (∀ n a b, i ≠ .detectorCall n a b) → p = .signal ∨ p = .supervisor → handOn i arrival s = exec i s) ∧
        (∀ (r : PhaseStatusFrame) (j : JunctionNo) (q : PhaseNo), i = .phaseStatus r → r.junction = j.val → s.present j = true → r.phase = q.val →
          q.val < (s.image.junction j).phaseCount → s.stall = none → s.linkSettled →
          ∃ t, handOn i arrival s = .next t ∧ (t.junction j).stale = false ∧ (t.junction j).staleDeadline = some (after arrival 30) ∧
            (t.junction j).mirror = some { phase := q, interval := r.interval, elapsed := r.elapsed, remaining := r.remaining, receipt := arrival }) ∧
        ∀ (j : JunctionNo) (a b : Nat), i = .detectorCall j.val a b → s.present j = true → s.stall = none → s.linkSettled →
          ∃ t, handOn i arrival s = .next t ∧ (t.junction j).lastCall = some { approach := a, presence := b, receipt := arrival }) ∧
    (∀ (s : State) (o : SentOrder) (rest : List SentOrder), s.signalWaiting = o :: rest →
      exec (.portFrameComplete .signal) s = .next { s with signalFrame := some o, signalWaiting := rest }) ∧
      (∀ s : State, s.signalWaiting = [] → exec (.portFrameComplete .signal) s = .next { s with signalFrame := none }) ∧
      (∀ (s : State) (h : OutHandOn) (rest : List OutHandOn), s.corridorWaiting = h :: rest →
        exec (.portFrameComplete .corridor) s = .next { s with corridorFrame := some h, corridorWaiting := rest }) ∧
      ∀ s : State, s.corridorWaiting = [] → exec (.portFrameComplete .corridor) s = .next { s with corridorFrame := none }

/-! ### The supervisor's link (Chapter 10) -/

/-- R169 steps 2 and 3, R170: a request that arrives while one is in progress is answered BUSY by the link, at the tail of the busy list, or discarded where four
answers wait; one of an unknown kind, or whose body does not fit its kind, is refused with MALFORMED. Neither changes anything else, and no block sees it. -/
def Obligations.BusyAndMisfitRequestsChangeNothing : Prop :=
  (∀ (c : Instr) (kind number : Byte) (fits : Bool) (s : State), requestOf c = some (kind, number, fits) → s.marker = true →
     s.linkSettled → exec c s = .next ((s.hunt .supervisor).busied kind number)) ∧
    ∀ (c : Instr) (kind number : Byte) (s : State), requestOf c = some (kind, number, false) → s.marker = false →
      exec c s = .next ((s.hunt .supervisor).replied kind number .malformed .empty)

/-- R170, R178, R179: at the completion of its frame the supervisor's transmitter begins the answer whose request arrived first, or else the head notice,
which leaves the queue, or else is idle; the completion of a reply ends its request's time in progress. -/
def Obligations.TransmitterPrefersAnswers : Prop :=
  ∀ (s : State) (f : SupervisorFrame), s.supervisorFrame = some f →
    let marker := match f with
      | .reply _ => false
      | .busy _ => s.marker
      | .notice _ => s.marker
    (∀ r, s.replySlot = some r → (r.ahead = 0 ∨ s.busyList = []) →
      exec .supervisorFrameComplete s =
        .next { s with marker := marker, replySlot := none, supervisorFrame := some (.reply r.reply) }) ∧
      (∀ b rest, (∀ r, s.replySlot = some r → r.ahead ≠ 0) → s.busyList = b :: rest →
        exec .supervisorFrameComplete s =
          .next { s with
            marker := marker, busyList := rest, supervisorFrame := some (.busy b)
            replySlot := s.replySlot.map fun r => { r with ahead := r.ahead - 1 } }) ∧
      (∀ n rest, s.stall = none → s.replySlot = none → s.busyList = [] → s.noticeQueue = n :: rest →
        exec .supervisorFrameComplete s =
          .next { s with marker := marker, noticeQueue := rest, supervisorFrame := some (.notice n) }) ∧
      (s.replySlot = none → s.busyList = [] → s.noticeQueue = [] →
        exec .supervisorFrameComplete s = .next { s with marker := marker, supervisorFrame := none })

/-! ### Inspection -/

/-- R67: READ TRACK and READ SET show the table as it stands and change nothing. -/
def Obligations.TrackTableReads : Prop :=
  ∀ (s : State) (number : Byte), s.marker = false →
    (∀ (v : Nat) (w : Way) (t : Track), s.tablePlaced → s.track (placeOf v w) = some t → t.vehicle = v →
      exec (.readTrack { number := number, body := some v }) s = .next ((s.hunt .supervisor).replied 0x02 number .ok (.track t))) ∧
      (∀ v : Nat, (∀ (w : Way) (t : Track), s.track (placeOf v w) = some t → t.vehicle ≠ v) →
        exec (.readTrack { number := number, body := some v }) s =
          .next ((s.hunt .supervisor).replied 0x02 number .notFound .empty)) ∧
      (∀ k : SetNo,
        exec (.readSet { number := number, body := some k.val }) s =
          .next ((s.hunt .supervisor).replied 0x03 number .ok (.set (s.sets.get k).a (s.sets.get k).b (s.sets.get k).age))) ∧
      ∀ n : Nat, 32 ≤ n →
        exec (.readSet { number := number, body := some n }) s = .next ((s.hunt .supervisor).replied 0x03 number .range .empty)

/-- R23, R39, R108, R174: READ CONFIG shows an entry of a table, or a slot without its report, READ LIST a present junction's entries in list order and none for
an absent one, and READ JUNCTION everything the junction holds, as they stand; a number beyond the last is RANGE; none of them changes anything. That the kind of
the abandoned order is not shown is the model's choice (log 38). -/
def Obligations.ReadsShowTheStateAsItStands : Prop :=
  (∀ (s : State) (number : Byte), s.marker = false →
     (∀ (t : TableName) (i : Nat) (e : TableEntry), s.image.read t i = some e →
       exec (.readConfig { number := number, body := some { table := t, index := i } }) s =
         .next ((s.hunt .supervisor).replied 0x08 number .ok (.entry e))) ∧
       (let img := s.image
        (∀ j : JunctionNo, img.read .junction j.val = some (.junction (img.junctions.get j))) ∧
          (∀ k : Fin 32, img.read .phase k.val = some (.phase (img.phases.get k))) ∧
          (∀ j : JunctionNo, img.read .gate j.val = some (.gate (img.gates.get j))) ∧
          (∀ a : ApproachNo, img.read .approach a.val = some (.approach (img.approaches.get a))) ∧
          (∀ k : Fin 128, img.read .reach k.val = some (.reach (img.reaches.get k))) ∧
          (∀ x : EntryId, img.read .entry x.val = some (.entry (img.entries.get x))) ∧
          (∀ k : Fin 16, img.read .routeRange k.val = some (.routeRange (img.routes.get k))) ∧
          (∀ g : GroupNo, img.read .group g.val = some (.group (img.groups.get g))) ∧
          (∀ k : Fin 4, img.read .cls k.val = some (.cls (img.classes.get k))) ∧
          (∀ k : Fin 4, img.read .level k.val = some (.level (img.levels.get k))) ∧ img.read .enables 0 = some (.enables img.enables) ∧
          ∀ n : Fin 23, img.read .parameter n.val = some (.parameter (img.parameters.get n))) ∧
       (∀ (t : TableName) (i : Nat), (i < tableSize t → (s.image.read t i).isSome) ∧ (tableSize t ≤ i →
         exec (.readConfig { number := number, body := some { table := t, index := i } }) s =
           .next ((s.hunt .supervisor).replied 0x08 number .range .empty))) ∧
       (∀ k : SlotNo,
         exec (.readConfigSlot { number := number, body := some k.val }) s =
           .next ((s.hunt .supervisor).replied 0x08 number .ok
             (.slotConfig (s.slots.get k).code (s.slots.get k).approachSwitches (s.slots.get k).kindSwitches
               (some (s.slots.get k).overrunFlag)))) ∧
       ∀ n : Nat, 16 ≤ n →
         exec (.readConfigSlot { number := number, body := some n }) s =
           .next ((s.hunt .supervisor).replied 0x08 number .range .empty)) ∧
    ∀ (s : State) (number : Byte), s.marker = false →
      (∀ j : JunctionNo, s.present j = true →
        exec (.readList { number := number, body := some j.val }) s =
          .next ((s.hunt .supervisor).replied 0x05 number .ok (.list (s.junction j).list))) ∧
        (∀ j : JunctionNo, s.present j = false →
          exec (.readList { number := number, body := some j.val }) s =
            .next ((s.hunt .supervisor).replied 0x05 number .ok (.list []))) ∧
        (∀ j : JunctionNo,
          let x := s.junction j
          let l := s.load j
          let limits := s.image.levels.get (levelIndex l.level)
          ∃ v : JunctionView,
            exec (.readJunction { number := number, body := some j.val }) s =
                .next ((s.hunt .supervisor).replied 0x04 number .ok (.junction v)) ∧
              v.present = (s.image.junctions.get j).present ∧ v.state = x.state ∧ v.faults = x.faults ∧
              v.abandoned = x.abandoned.map (·.1) ∧ v.discard = x.discard ∧ v.tagCounter = x.tagCounter ∧
              v.outstanding = (x.outstanding.map fun o => (o.order, o.tag, o.deadline)) ∧ v.pendingOrder = x.pendingOrder.map (·.order) ∧
              v.grant = x.grant ∧ v.sequenceBorrowed = x.sequenceBorrowed ∧ v.recoveryDeadline = x.recoveryDeadline ∧ v.mirror = x.mirror ∧
              v.stale = x.stale ∧ v.lastCall = x.lastCall ∧ v.gate = x.gate ∧ v.saved = x.saved ∧ v.carry = x.carry ∧
              (∀ f w o, x.state = .awaitRuling → s.referral = some f → f.cls = .conflict → f.place = .junction j → f.held = .conflict w o →
                v.conflict = some (w, o)) ∧
              ((∀ f, s.referral = some f → f.cls ≠ .conflict ∨ f.place ≠ .junction j) ∨ x.state ≠ .awaitRuling → v.conflict = none) ∧
              v.average = l.average ∧ v.level = l.level ∧ v.sum = l.sum ∧ v.count = l.count ∧ v.rises = l.rises ∧ v.used = x.used ∧
              v.windowNumber = x.windowNumber ∧ v.windowDeadline = x.windowDeadline ∧ v.cap = limits.cap ∧ v.floor = limits.floor ∧
              v.budgetLeft = limits.cap - x.used) ∧
        ∀ n : Nat, 4 ≤ n →
          exec (.readList { number := number, body := some n }) s =
              .next ((s.hunt .supervisor).replied 0x05 number .range .empty) ∧
            exec (.readJunction { number := number, body := some n }) s =
              .next ((s.hunt .supervisor).replied 0x04 number .range .empty)

/-- R39, R159, R168, R174: READ STATUS shows the clock, the link, the slots, the junctions, the anomalies, the reliability counters and the store as they
stand, and changes nothing. -/
def Obligations.StatusRead : Prop :=
  ∀ (s : State) (number : Byte), s.marker = false →
    ∃ v : StatusView,
      exec (.readStatus { number := number, body := some () }) s = .next ((s.hunt .supervisor).replied 0x01 number .ok (.status v)) ∧
        v.clock = s.clock ∧ v.overflow = s.overflow ∧ v.queued = s.noticeQueue.length ∧ v.nextNumber = s.noticeCounter ∧
        (∀ k, v.slots.get k = ((s.slots.get k).code, (s.slots.get k).overrunFlag)) ∧ v.hold = s.hold ∧
        (∀ j, v.junctions.get j =
          { state := (s.junction j).state, faults := (s.junction j).faults, level := (s.load j).level, rises := (s.load j).rises }) ∧
        v.anomalyFlags = s.anomalyFlags ∧ v.lastCause = s.lastCause ∧ v.referral = s.referral.map s.referralView ∧
        v.reliability = s.reliability ∧ v.leakDeadline = s.leakDeadline ∧ v.startPassed = s.startPassed ∧
        v.condition = s.condition ∧ v.lock = s.lock ∧ v.committing = s.commit.isSome ∧ v.lastCommit = s.lastCommit

/-! ### Intake (Chapter 2) -/

/-- R25, R26, R30, R187: a valid report, stamped with the clock of its arrival, goes into the lowest-numbered matching slot that is EMPTY and not held, which
becomes FULL; otherwise it replaces the report of the lowest-numbered matching unheld slot that holds one, which becomes OVERRUN with its flag set; otherwise
it is discarded. A frame that fails a check, of an unknown kind, or of a report with a number outside its range, is discarded. Nothing else changes but the
receiver, which goes through the bytes of an unfit frame again as on the other ports. -/
def Obligations.ReportsAreCheckedAndPlaced : Prop :=
  (∀ (s : State) (r : Report), validVehicle r.vehicle = true → validBody r.body = true → r.stamp = s.clock →
     let free (k : SlotNo) : Prop := (s.slots.get k).admits r = true ∧ s.hold ≠ some k ∧ (s.slots.get k).code = .empty
     let filled (k : SlotNo) : Prop :=
       (s.slots.get k).admits r = true ∧ s.hold ≠ some k ∧ ((s.slots.get k).code = .full ∨ (s.slots.get k).code = .overrun)
     let c : Instr := .radioReport (.report r.vehicle r.approach.val r.body)
     (∀ k, free k → (∀ k', k' < k → ¬ free k') →
       exec c s = .next { s.hunt .radio with slots := s.slots.set k { s.slots.get k with code := .full, report := some r } }) ∧
       (∀ k, (∀ k', ¬ free k') → filled k → (∀ k', k' < k → ¬ filled k') →
         exec c s =
           .next { s.hunt .radio with
             slots := s.slots.set k { s.slots.get k with code := .overrun, report := some r, overrunFlag := true } }) ∧
       ((∀ k, ¬ free k) → (∀ k, ¬ filled k) → exec c s = .next (s.hunt .radio))) ∧
    ∀ s : State,
      (∀ l : List HeardByte, exec (.radioReport (.unfit l)) s = exec (.abandonedFrame .radio (.length l)) s) ∧
        exec (.radioReport .misfit) s = .next (s.hunt .radio) ∧ (∀ k, exec (.radioReport (.unknownKind k)) s = .next (s.hunt .radio)) ∧
        ∀ (v a : Nat) (b : ReportBody), (v = 0 ∨ 65535 ≤ v ∨ 16 ≤ a ∨ validBody b = false) →
          exec (.radioReport (.report v a b)) s = .next (s.hunt .radio)

/-- R32, R33: TM, free and with no hand-on waiting, takes the report of the slot that the intake order names: the lowest-numbered that holds a report and is
not held, or, under AGE, the one with the oldest stamp. The slot becomes EMPTY, keeping its switches and its overrun flag, and no other slot changes. -/
def Obligations.TakeEmptiesTheChosenSlot : Prop :=
  ∀ (s : State) (k : SlotNo) (r : Report), s.stall = none → s.corridorQueue = [] → s.takeable k = true →
    (s.slots.get k).report = some r →
    (s.image.intakeByAge = false ∧ (∀ k', k' < k → s.takeable k' = false) ∨
      s.image.intakeByAge = true ∧
        ∀ k', k' ≠ k → s.takeable k' = true →
          earlier (s.slotStamp k) (s.slotStamp k') = true ∨ s.slotStamp k = s.slotStamp k' ∧ k < k') →
    ∃ t, exec .takeReport s = .next t ∧ t.slots = s.slots.set k { s.slots.get k with code := .empty, report := none } ∧
      t.steady = { s.steady with slots := t.slots }

/-- R35, R36: HOLD SLOT answers with the slot as it stands and moves the hold to it, a slot held before becoming eligible again; a number beyond 15 is RANGE.
RELEASE SLOT ends the hold and is answered OK in every case; a slot that holds a report is then eligible. -/
def Obligations.HoldAndReleaseMoveTheHold : Prop :=
  (∀ (s : State) (number : Byte), s.marker = false →
     (∀ k : SlotNo,
       exec (.holdSlot { number := number, body := some k.val }) s =
         .next (({ s.hunt .supervisor with hold := some k } : State).replied 0x06 number .ok (.slot (s.slots.get k)))) ∧
       (∀ k k' : SlotNo, k ≠ k' → (s.slots.get k').holds = true → ({ s with hold := some k } : State).takeable k' = true) ∧
       ∀ n : Nat, 16 ≤ n →
         exec (.holdSlot { number := number, body := some n }) s = .next ((s.hunt .supervisor).replied 0x06 number .range .empty)) ∧
    ∀ (s : State) (number : Byte), s.marker = false →
      exec (.releaseSlot { number := number, body := some () }) s =
          .next (({ s.hunt .supervisor with hold := none } : State).replied 0x07 number .ok .empty) ∧
        ∀ k : SlotNo, (s.slots.get k).holds = true → ({ s with hold := none } : State).takeable k = true

/-- R37, R38: an accepted SLOT write sets the slot's code and switches, discards the report it holds, and leaves its overrun flag and the hold; an index
beyond 15, or a code other than INACTIVE or EMPTY, is RANGE; the configuration lock does not reach it. -/
def Obligations.SlotWritesDiscardTheReport : Prop :=
  ∀ (s : State) (number : Byte), s.marker = false →
    let carried (l : List Bool) : List Nat := l.map fun b => if b then 1 else 0
    (∀ (k : SlotNo) (code : SlotCode) (a : Vector Bool 16) (kinds : Vector Bool 6), code = .inactive ∨ code = .empty →
      let w : SlotWrite :=
        { index := k.val, code := slotCode code, approachSwitches := carried a.toList, kindSwitches := carried kinds.toList }
      exec (.writeConfigSlot { number := number, body := some w }) s =
        .next (({ s.hunt .supervisor with
            slots := s.slots.set k { code := code, approachSwitches := a, kindSwitches := kinds, report := none,
                                     overrunFlag := (s.slots.get k).overrunFlag } } : State).replied 0x09 number .ok
          (.slotConfig code a kinds none))) ∧
      ∀ w : SlotWrite, w.approachSwitches.length = 16 → w.kindSwitches.length = 6 → (16 ≤ w.index ∨ 2 ≤ w.code) →
        exec (.writeConfigSlot { number := number, body := some w }) s =
          .next ((s.hunt .supervisor).replied 0x09 number .range .empty)

/-! ### Hand-ons (R63–R65) -/

/-- R63, R64: a valid hand-on, its deviation clamped and its receipt stamped, joins the tail of the corridor queue; where 4 wait it is dropped, and a record whose
vehicle, route or entry id is outside its range is discarded. The oldest is taken: on a hit it replaces the track's deviation, and an EXPECTED track's expect
deadline is formed anew; an entry without an approach, or a miss on an unplaced route, discards it. -/
def Obligations.HandOnsWaitAndUpdateTracks : Prop :=
  (∀ (s : State) (v r : Nat) (d : Int),
     (∀ e : EntryId, validVehicle v = true → validRoute r = true → s.corridorQueue.length < 4 →
       exec (.handOnArrival { vehicle := v, route := r, deviation := d, entry := e.val }) s =
         .next { s.hunt .corridor with
           corridorQueue := s.corridorQueue ++
             [{ vehicle := v, route := r, deviation := min 6000 (max (-3000) d), entry := e, stamp := s.clock }] }) ∧
       (∀ e : Nat, 4 ≤ s.corridorQueue.length →
         exec (.handOnArrival { vehicle := v, route := r, deviation := d, entry := e }) s = .next (s.hunt .corridor)) ∧
       ∀ e : Nat, (v = 0 ∨ 65535 ≤ v ∨ r = 0 ∨ 4096 ≤ r ∨ 4 ≤ e) →
         exec (.handOnArrival { vehicle := v, route := r, deviation := d, entry := e }) s = .next (s.hunt .corridor)) ∧
    ∀ (s : State) (h : HandOn) (rest : List HandOn), s.stall = none → s.linkSettled → s.corridorQueue = h :: rest →
      let entry := s.image.entries.get h.entry
      (entry.approach = none → exec .takeHandOn s = .next { s with corridorQueue := rest }) ∧
        (s.lookup h.vehicle = none → s.image.placeRoute h.route = none →
          exec .takeHandOn s = .next { s with corridorQueue := rest }) ∧
        ∀ (p : Place) (t : Track), entry.approach ≠ none → s.lookup h.vehicle = some p → s.track p = some t →
          (t.state ≠ .expected →
            exec .takeHandOn s =
              .next (({ s with corridorQueue := rest } : State).putTrack p (some { t with deviation := some h.deviation }))) ∧
            (t.state = .expected → s.due (some (after h.stamp (entry.linkTime + s.image.expectMargin))) = false →
              exec .takeHandOn s =
                .next (({ s with corridorQueue := rest } : State).putTrack p (some { t with
                  deviation := some h.deviation
                  expectDeadline := some (after h.stamp (entry.linkTime + s.image.expectMargin)) })))

/-- R41, R45–R47, R61, R64: a hand-on that misses, with a placed route, takes an invalid way of its set (A first) for an EXPECTED track, and the set's age bit is
complemented; where both ways are valid, the victim is the unpinned one of the two, B where both are pinned, and the one the age bit names where neither is. The
victim's record is written back first, or stalls TM; its request is withdrawn and the track gone. A CHECK-IN that misses, with a placed route, allocates in the same way an
APPROACHING track that has started its approach and taken its first prediction, evicting and stalling as the hand-on does; the CHECK-IN's slot is emptied. The fields to which no rule gives a
value are free (log 7). That a stall keeps the way chosen, the group and the link time is log 26. -/
def Obligations.HandOnsMakeExpectedTracks : Prop :=
  (∀ (s : State) (h : HandOn) (rest : List HandOn) (g : GroupNo), s.stall = none → s.linkSettled → s.corridorQueue = h :: rest →
    (s.image.entries.get h.entry).approach ≠ none → s.lookup h.vehicle = none → s.image.placeRoute h.route = some g →
    let deadline := after h.stamp ((s.image.entries.get h.entry).linkTime + s.image.expectMargin)
    let old := s.sets.get (placeOf h.vehicle .a).set
    s.due (some deadline) = false → (old.a = none ∨ old.b = none) →
    ∃ t u, exec .takeHandOn s = .next t ∧ t.corridorQueue = rest ∧
      t.track (placeOf h.vehicle (if old.a = none then .a else .b)) = some u ∧
      (t.sets.get (placeOf h.vehicle .a).set).age = otherWay old.age ∧ u.vehicle = h.vehicle ∧ u.route = h.route ∧ u.group = g ∧
      u.state = .expected ∧ u.approach = none ∧ u.lastSeen = none ∧ u.deviation = some h.deviation ∧
      u.expectDeadline = some deadline ∧ u.pinned = false ∧ u.listed = none ∧ u.referralOpen = false ∧ u.superseded = 0 ∧
      u.journey = none ∧ t.steady = { s.steady with corridorQueue := rest } ∧ t.junctions = s.junctions ∧ t.stall = none) ∧
  (∀ (s : State) (h : HandOn) (rest : List HandOn) (g : GroupNo) (ta tb victim : Track), s.stall = none → s.linkSettled → s.corridorQueue = h :: rest →
    (s.image.entries.get h.entry).approach ≠ none → s.lookup h.vehicle = none → s.image.placeRoute h.route = some g →
    let link := (s.image.entries.get h.entry).linkTime
    let old := s.sets.get (placeOf h.vehicle .a).set
    let w : Way := if ta.pinned = true then .b else if tb.pinned = true then .a else old.age
    let p := placeOf h.vehicle w
    old.a = some ta → old.b = some tb → s.track p = some victim → s.due (some (after h.stamp (link + s.image.expectMargin))) = false →
    (victim.journey = none ∨ s.noticeQueue.length < 16 →
      ∃ t u, exec .takeHandOn s = .next t ∧ t.track p = some u ∧ u.vehicle = h.vehicle ∧ u.route = h.route ∧ u.group = g ∧ u.state = .expected ∧
        u.pinned = false ∧ u.listed = none ∧ u.journey = none ∧ u.referralOpen = false ∧
        (t.track (placeOf h.vehicle (otherWay w))).map Track.ownFields = (s.track (placeOf h.vehicle (otherWay w))).map Track.ownFields ∧
        (t.sets.get (placeOf h.vehicle .a).set).age = otherWay old.age ∧ t.steady = { s.steady with corridorQueue := rest } ∧ t.stall = none ∧
        (∀ rec, victim.journey = some rec → t.carries { number := s.noticeCounter, body := .journey rec }) ∧
        ∀ j x, victim.listed = some j → findEntry victim.vehicle (s.junction j).list = some x → x.way = w →
          findEntry victim.vehicle (t.junction j).list = none) ∧
      (victim.journey ≠ none → 16 ≤ s.noticeQueue.length →
        exec .takeHandOn s =
          .next { s with
            corridorQueue := rest, noticeCounter := s.noticeCounter + 1
            stall := some { place := p, work := .allocateHandOn h g link, limit := after s.clock 20, number := s.noticeCounter } })) ∧
  ∀ (s : State) (k : SlotNo) (r : Report) (route D sp : Nat) (dev : Option Int) (g : GroupNo), s.picks k r → r.body = .checkIn route D sp dev →
    s.image.enabled r.approach = true → s.lookup r.vehicle = none → s.image.placeRoute route = some g →
    let m := predictTimes (s.image.reachesInUse r.approach) (s.image.approach r.approach).trust
      { lastDeparted := none, dwellStop := none, stopArrive := none } none none D sp r.stamp
    let old := s.sets.get (placeOf r.vehicle .a).set
    (old.a = none ∨ old.b = none → s.beginsWell r → ∃ t, s.checksIn t k r (if old.a = none then .a else .b) route D sp dev g m) ∧
      ∀ ta tb victim : Track,
        let w : Way := if ta.pinned = true then .b else if tb.pinned = true then .a else old.age
        let p := placeOf r.vehicle w
        old.a = some ta → old.b = some tb → s.track p = some victim →
        (victim.journey = none ∨ s.noticeQueue.length < 16 → s.beginsWell r →
          ∃ t, s.checksIn t k r w route D sp dev g m ∧
            (t.track (placeOf r.vehicle (otherWay w))).map Track.ownFields = (s.track (placeOf r.vehicle (otherWay w))).map Track.ownFields ∧
            (∀ rec, victim.journey = some rec → t.carries { number := s.noticeCounter, body := .journey rec }) ∧
            ∀ j x, victim.listed = some j → findEntry victim.vehicle (s.junction j).list = some x → x.way = w →
              findEntry victim.vehicle (t.junction j).list = none) ∧
          (victim.journey ≠ none → 16 ≤ s.noticeQueue.length → s.linkSettled →
            exec .takeReport s =
              .next { s.emptied k with
                noticeCounter := s.noticeCounter + 1
                stall := some { place := p, work := .allocateReport r g, limit := after s.clock 20, number := s.noticeCounter } })

/-! ### Tracks and predictions (Chapters 3 and 4) -/

/-- R70: every distance from 1 to B_0 lies in exactly the reach that `reachAt` names, between its two boundaries. -/
def Obligations.ReachHoldsItsDistance : Prop :=
  ∀ (rs : List ReachEntry) (D : Nat), (∀ r ∈ rs, 1 ≤ r.length) → 1 ≤ D → D ≤ boundary rs 0 →
    reachAt D rs < rs.length ∧ boundary rs (reachAt D rs + 1) < D ∧ D ≤ boundary rs (reachAt D rs) ∧
      ∀ k, k < rs.length → boundary rs (k + 1) < D → D ≤ boundary rs k → k = reachAt D rs

/-- R44, R51–R54, R61, R68, R75–R86: a POSITION, or a CHECK-IN on the track's own approach, which passes the screening and the three checks, is applied: the distance, speed, report time, last
seen time and stale deadline from the report, and the reach, ETA, nominal time, lateness, class and tier from the prediction. In DWELLING, one short of the stop departs from it, and one that
is not short of it leaves the bus DWELLING there. A CHECK-IN on an EXPECTED or CLEARED track, or on one on another approach, starts the approach, with its first prediction: the record of a CLEARED
track is written back first, or stalls the Track Manager, and the request of a bus that has moved is withdrawn as LOST. A STOP ARRIVE makes the track DWELLING at its stop with a dwell
deadline, and where it names the stop at which the bus already dwells it refreshes the track alone (that its deviation stays is log 27); a STOP DEPART makes it APPROACHING, departed from the stop it names. Both set the
distance of the stop and speed 0, and predict. -/
def Obligations.PositionUpdatesItsTrack : Prop :=
  ∀ (s : State) (k : SlotNo) (r : Report) (p : Place) (t : Track), s.takes k r p t → s.due (some (after r.stamp s.image.staleTime)) = false →
    let reaches := s.image.reachesInUse r.approach
    let times (f : StopFields) (dwelling : Option ReachEntry) (D sp : Nat) : Times :=
      predictTimes reaches (s.image.approach r.approach).trust f dwelling none D sp r.stamp
    let running : Prop := t.state = .approaching ∨ t.state = .dwelling
    let c : Instr := .takeReport
    (∀ (route D sp : Nat) (dev : Option Int), r.body = .position D sp dev ∨ r.body = .checkIn route D sp dev → t.approach = some r.approach →
      1 ≤ D → D ≤ boundary reaches 0 → D ≤ t.distance + s.image.reversalTolerance →
      (let m := times { lastDeparted := t.lastDeparted, dwellStop := t.dwellStop, stopArrive := t.stopArrive } none D sp
       t.state = .approaching → m.delta ≤ s.image.horizon →
       ∃ v u, s.predicted v k r p t u m D sp (deviationAfter t.deviation dev) ∧ u.state = .approaching ∧ v.reliability = s.reliability) ∧
        ∀ stop, t.state = .dwelling → t.dwellStop = some stop →
          (let m := times { lastDeparted := some stop, dwellStop := none, stopArrive := none } none D sp
           D < boundary reaches (stop + 1) → m.delta ≤ s.image.horizon →
           ∃ v u, s.predicted v k r p t u m D sp (deviationAfter t.deviation dev) ∧ u.state = .approaching ∧ u.lastDeparted = some stop ∧
             u.dwellStop = none ∧ u.stopArrive = none ∧ u.dwellDeadline = none ∧ v.reliability = s.reliability) ∧
            (let m := times { lastDeparted := t.lastDeparted, dwellStop := some stop, stopArrive := t.stopArrive } reaches[stop]? D sp
             boundary reaches (stop + 1) ≤ D → m.delta ≤ s.image.horizon →
             ∃ v u, s.predicted v k r p t u m D sp (deviationAfter t.deviation dev) ∧ u.state = .dwelling ∧ u.lastDeparted = t.lastDeparted ∧
               u.dwellStop = some stop ∧ u.stopArrive = t.stopArrive ∧ u.dwellDeadline = t.dwellDeadline ∧ v.reliability = s.reliability)) ∧
      (∀ (route D sp : Nat) (dev : Option Int), r.body = .checkIn route D sp dev → t.startsApproach r.approach →
        (t.state = .cleared → t.journey = none ∨ s.noticeQueue.length < 16) →
        (let m := times { lastDeparted := none, dwellStop := none, stopArrive := none } none D sp
         1 ≤ D → D ≤ boundary reaches 0 → m.delta ≤ s.image.horizon →
         ∃ v u, s.predicted v k r p t u m D sp (deviationAfter t.deviation dev) ∧ u.state = .approaching ∧ u.lastDeparted = none ∧
           u.dwellStop = none ∧ u.stopArrive = none ∧ u.dwellDeadline = none ∧ u.expectDeadline = none ∧ u.borrowed = 0 ∧
           (u.action = .none ∨ u.action = .ride) ∧ (u.listed = none → u.firstListed = none ∧ u.firstEta = none) ∧
           (t.state = .cleared → u.journey = none ∧ ∀ rec, t.journey = some rec → v.carries { number := s.noticeCounter, body := .journey rec }) ∧
           (¬ running → v.reliability = s.reliability) ∧
           ∀ j x, running → t.listed = some j → findEntry t.vehicle (s.junction j).list = some x → x.way = p.way →
             s.losesRequest v j t.vehicle x ∧
               ((s.image.approach r.approach).junction ≠ some j → findEntry t.vehicle (v.junction j).list = none))) ∧
      (∀ (route D sp : Nat) (dev : Option Int), r.body = .checkIn route D sp dev → t.state = .cleared → t.journey ≠ none →
        16 ≤ s.noticeQueue.length → s.linkSettled →
        exec c s =
          .next { s.emptied k with
            noticeCounter := s.noticeCounter + 1
            stall := some { place := p, work := .startApproach r, limit := after s.clock 20, number := s.noticeCounter } }) ∧
      ∀ (stop : Nat) (dev : Option Int), running → t.approach = some r.approach → s.image.isStop r.approach stop = true →
        (∃ x, reaches[stop]? = some x ∧ x.dwellMode ≠ .none) →
        let D := boundary reaches (stop + 1)
        (r.body = .stopArrive stop dev →
          (t.state = .dwelling → t.dwellStop = some stop → s.linkSettled →
            exec c s =
              .next ((s.emptied k).putTrack p (some { t with
                lastSeen := some r.stamp, staleDeadline := some (after r.stamp s.image.staleTime) }))) ∧
            (let departed := if t.state = .dwelling then t.dwellStop else t.lastDeparted
             let m := times { lastDeparted := departed, dwellStop := some stop, stopArrive := some r.stamp } reaches[stop]? D 0
             t.state = .approaching ∨ t.dwellStop ≠ some stop → 1 ≤ D → D ≤ t.distance + s.image.reversalTolerance → m.delta ≤ s.image.horizon →
             s.due (some (after r.stamp s.image.dwellCap)) = false →
             ∃ v u, s.predicted v k r p t u m D 0 (deviationAfter t.deviation dev) ∧ u.state = .dwelling ∧ u.dwellStop = some stop ∧
               u.stopArrive = some r.stamp ∧ u.dwellDeadline = some (after r.stamp s.image.dwellCap) ∧ u.lastDeparted = departed ∧
               v.reliability = s.reliability)) ∧
          (r.body = .stopDepart stop dev →
            let m := times { lastDeparted := some stop, dwellStop := none, stopArrive := none } none D 0
            1 ≤ D → D ≤ t.distance + s.image.reversalTolerance → m.delta ≤ s.image.horizon →
            ∃ v u, s.predicted v k r p t u m D 0 (deviationAfter t.deviation dev) ∧ u.state = .approaching ∧ u.lastDeparted = some stop ∧
              u.dwellStop = none ∧ u.stopArrive = none ∧ u.dwellDeadline = none ∧ v.reliability = s.reliability)

/-- R44, R49, R51–R53, R55, R60, R65: a PASSED taken for a track on its approach, or a POSITION or CHECK-IN at distance 0, makes it CLEARED, with the pending journey record of the passage
and its request withdrawn. Where the approach has an exit target a hand-on goes out: an idle corridor transmitter begins it, and behind a frame in transmission it waits, unless 4 wait already. A
CHECK-IN at distance 0 that starts an approach is the passage of that approach; that its hand-on carries the CHECK-IN's own deviation is log 50. A CLEARED track is refreshed by every report of its
approach but a CHECK-IN or a CHECK-OUT; that its deviation stays is log 27. The difference in the hand-on's deviation is taken with its sign (log 46). That a track that is not listed is not
pinned (R48) is an invariant of its own. -/
def Obligations.PassageClearsItsTrack : Prop :=
  ∀ (s : State) (k : SlotNo) (r : Report) (p : Place) (t : Track), s.takes k r p t → s.due (some (after r.stamp s.image.staleTime)) = false →
    let approach := s.image.approach r.approach
    let cleared (v : State) (u : Track) (deviation : Int) : Prop :=
      exec .takeReport s = .next v ∧ v.track p = some u ∧ u.vehicle = t.vehicle ∧ u.state = .cleared ∧ u.approach = some r.approach ∧
        u.distance = 0 ∧ u.eta = none ∧ u.dwellStop = none ∧ u.dwellDeadline = none ∧ u.listed = none ∧ u.lastSeen = some r.stamp ∧
        u.staleDeadline = some (after r.stamp s.image.staleTime) ∧
        (∀ x, approach.exitTarget = some x → s.corridorFrame = none →
          v.corridorFrame = some { vehicle := t.vehicle, route := t.route, entry := x, deviation := clampDs deviation }) ∧
        (∀ x f, approach.exitTarget = some x → s.corridorFrame = some f →
          let h : OutHandOn := { vehicle := t.vehicle, route := t.route, entry := x, deviation := clampDs deviation }
          v.corridorFrame = some f ∧
            v.corridorWaiting = if s.corridorWaiting.length < 4 then s.corridorWaiting ++ [h] else s.corridorWaiting) ∧
        (approach.exitTarget = none → v.corridorFrame = s.corridorFrame ∧ v.corridorWaiting = s.corridorWaiting) ∧ v.slots = (s.emptied k).slots ∧
        (∀ q : Place, q ≠ p → (v.track q).map Track.ownFields = (s.track q).map Track.ownFields) ∧
        v.steady = { s.steady with slots := v.slots }
    (∀ (j : JunctionNo) (route sp : Nat) (dev : Option Int), r.body = .passed ∨ r.body = .position 0 sp dev ∨ r.body = .checkIn route 0 sp dev →
      (t.state = .approaching ∨ t.state = .dwelling) → t.approach = some r.approach → (t.listed = none → t.pinned = false) →
      approach.junction = some j →
      ∃ v u, cleared v u (t.lateness + signedElapsed r.stamp (t.lastEta.getD r.stamp)) ∧ u.pinned = false ∧ v.reliability = s.reliability ∧
        u.journey = some { vehicle := t.vehicle, route := t.route, junction := j, approach := r.approach, firstListed := t.firstListed,
                           firstEta := t.firstEta, lastEta := t.lastEta.getD r.stamp, passTime := r.stamp, action := t.action,
                           borrowed := t.borrowed, cls := t.cls }) ∧
      (∀ (route sp : Nat) (dev : Option Int), r.body = .checkIn route 0 sp dev → t.startsApproach r.approach →
        (t.state = .expected ∨ t.state = .cleared → t.listed = none) → (t.state = .cleared → t.journey = none ∨ s.noticeQueue.length < 16) →
        ∃ v u, cleared v u ((deviationAfter t.deviation dev).getD 0) ∧
          u.journey = (approach.junction.map fun j =>
            { vehicle := t.vehicle, route := t.route, junction := j, approach := r.approach, firstListed := none, firstEta := none, lastEta := r.stamp,
              passTime := r.stamp, action := .none, borrowed := 0, cls := .onTime }) ∧
          ∀ rec, t.state = .cleared → t.journey = some rec → v.carries { number := s.noticeCounter, body := .journey rec }) ∧
      (t.state = .cleared → t.approach = some r.approach → s.linkSettled →
        r.body = .passed ∨ (∃ D sp dev, r.body = .position D sp dev) ∨
          (∃ stop dev x, (r.body = .stopArrive stop dev ∨ r.body = .stopDepart stop dev) ∧ s.image.isStop r.approach stop = true ∧
            (s.image.reachesInUse r.approach)[stop]? = some x ∧ x.dwellMode ≠ .none) →
        exec .takeReport s =
          .next ((s.emptied k).putTrack p (some { t with lastSeen := some r.stamp, staleDeadline := some (after r.stamp s.image.staleTime) })))

/-- R44, R51, R56–R58, R61, R177: at its stale deadline a track without a pending record, or whose record finds room in the notice queue, is invalidated, as is an EXPECTED
track at its expect deadline; a deadline that is absent or later than the clock does nothing (log 10). A pending record that finds the notice queue full stalls
TM: the track stays, the stall limit is 20 ds away, and the JOURNEY notice has taken its number. A CHECK-OUT refreshes its track (but an EXPECTED one) and invalidates it in the
same way, its request withdrawn as LOST. That it sets last seen and the stale deadline (R44) before a write-back that stalls is log 27. -/
def Obligations.ExpiriesInvalidateOrStall : Prop :=
  (∀ (s : State) (k : SlotNo) (r : Report) (p : Place) (t : Track), s.takes k r p t → r.body = .checkOut →
    t.approach ≠ none ∨ t.state = .expected ∨ t.state = .cleared →
    (t.journey = none ∨ s.noticeQueue.length < 16 →
      ∃ v, exec .takeReport s = .next v ∧ v.track p = none ∧ v.stall = none ∧ v.slots = (s.emptied k).slots ∧
        v.steady = { s.steady with slots := v.slots } ∧ (v.sets.get p.set).age = (s.sets.get p.set).age ∧
        (∀ q : Place, q ≠ p → (v.track q).map Track.ownFields = (s.track q).map Track.ownFields) ∧
        (∀ rec, t.journey = some rec → v.carries { number := s.noticeCounter, body := .journey rec }) ∧
        ∀ j x, t.listed = some j → findEntry t.vehicle (s.junction j).list = some x → x.way = p.way →
          findEntry t.vehicle (v.junction j).list = none ∧ s.losesRequest v j t.vehicle x) ∧
      (t.journey ≠ none → 16 ≤ s.noticeQueue.length → s.linkSettled →
        let seen : Track :=
          if t.state = .expected then t else { t with lastSeen := some r.stamp, staleDeadline := some (after r.stamp s.image.staleTime) }
        exec .takeReport s =
          .next { (s.emptied k).putTrack p (some seen) with
            noticeCounter := s.noticeCounter + 1
            stall := some { place := p, work := .invalidate .checkedOut, limit := after s.clock 20, number := s.noticeCounter } })) ∧
  (∀ (s : State) (k : SetNo) (w : Way), s.stall = none → s.linkSettled →
     (∀ t d, s.track { set := k, way := w } = some t → t.staleDeadline = some d → s.due (some d) = true →
       (t.journey = none ∨ s.noticeQueue.length < 16) →
       ∃ s', exec (.staleDeadline k w) s = .next s' ∧ s'.track { set := k, way := w } = none ∧ s'.steady = s.steady ∧
         s'.stall = none ∧ (s'.sets.get k).age = (s.sets.get k).age) ∧
       (∀ t d, s.track { set := k, way := w } = some t → t.expectDeadline = some d → s.due (some d) = true →
         ∃ s', exec (.expectDeadline k w) s = .next s' ∧ s'.track { set := k, way := w } = none ∧ s'.steady = s.steady ∧
           s'.stall = none ∧ (s'.sets.get k).age = (s.sets.get k).age) ∧
       ∀ t, s.track { set := k, way := w } = some t →
         ((∀ d, t.staleDeadline = some d → s.due (some d) = false) → exec (.staleDeadline k w) s = .next s) ∧
           ((∀ d, t.expectDeadline = some d → s.due (some d) = false) → exec (.expectDeadline k w) s = .next s)) ∧
    ∀ (s : State) (k : SetNo) (w : Way) (t : Track) (rec : Journey) (d : Clock), s.stall = none → s.linkSettled →
      s.track { set := k, way := w } = some t → t.journey = some rec → t.staleDeadline = some d → s.due (some d) = true →
      16 ≤ s.noticeQueue.length →
      exec (.staleDeadline k w) s =
        .next { s with
          noticeCounter := s.noticeCounter + 1
          stall := some { place := { set := k, way := w }, work := .invalidate .stale, limit := after s.clock 20,
                          number := s.noticeCounter } }

/-- R46, R47, R52, R56, R61, R64, R177, R178: at the stall limit the record is dropped with the overflow flag set, and TM completes its work and is free; before the limit, and without a
stall, nothing happens (log 10). The room a notice leaves goes to the stalled JOURNEY notice, at the tail and with the number its offer took; or to another block's notice
(R62 gives either order), and TM then stays stalled with its stall limit unchanged. Which of the two comes first is read from the next choice of the model's own field, and what the other blocks' notices have left
of the room when the moment ends, at the clock's next tick, is TM's (log 5). That the way, the group and the link time taken before the stall stand, and that the parameters and the reaches are
read at the completion, is log 26. Either way TM completes the work it has in hand: the invalidation, the allocation of a hand-on or of a
CHECK-IN, or the start of an approach. The end of a stall is stated where nothing else waits on it, and where the bus's first prediction raises no anomaly. -/
def Obligations.StallsEndByRoomOrLimit : Prop :=
  (∀ s : State,
     (∀ x : Stall, s.stall = some x → s.due (some x.limit) = true → s.waiting = [] → s.canComplete x →
       ∃ t, exec .stallLimit s = .next t ∧ s.completes t x ∧ t.overflow = true ∧ t.steady = s.steady) ∧
       (∀ x : Stall, s.stall = some x → s.due (some x.limit) = false → exec .stallLimit s = .next s) ∧
       (s.stall = none → exec .stallLimit s = .next s) ∧
       ∀ (x : Stall) (u : Track) (rec : Journey), s.stall = some x → s.noticeQueue.length < 16 → s.supervisorFrame ≠ none → s.waiting = [] →
         s.canComplete x → s.track x.place = some u → u.journey = some rec →
         ∃ t l, exec .corridorClockTick s = .next t ∧ t.clock = s.clock + 1 ∧
           t.noticeQueue = s.noticeQueue ++ { number := x.number, body := .journey rec } :: l ∧ s.completes t x) ∧
    ∀ (s : State) (f : SupervisorFrame) (n : Notice) (rest : List Notice) (x : Stall),
      s.supervisorFrame = some f → s.replySlot = none → s.busyList = [] → s.noticeQueue = n :: rest → rest.length < 16 → s.stall = some x →
      (∀ (u : Track) (rec : Journey), s.orderChoices.headD 0 = 0 → s.waiting = [] → s.canComplete x →
        s.track x.place = some u → u.journey = some rec →
        ∃ t l, exec .supervisorFrameComplete s = .next t ∧ t.supervisorFrame = some (.notice n) ∧
          t.noticeQueue = rest ++ { number := x.number, body := .journey rec } :: l ∧ s.completes t x) ∧
        (s.orderChoices.headD 0 ≠ 0 →
          let marker := match f with
            | .reply _ => false
            | .busy _ => s.marker
            | .notice _ => s.marker
          exec .supervisorFrameComplete s =
            .next { s with
              marker := marker, noticeQueue := rest, supervisorFrame := some (.notice n), orderChoices := s.orderChoices.tail })

/-- R44, R59, R66, R87, R147–R151: at its dwell deadline a DWELLING bus raises a DWELL anomaly. Where that class is referable and no referral is open, AU holds the dwell:
the referral opens with its deadline, and the track stays DWELLING with its referral open; otherwise the class's flag is set, and the bus departs by default from
its stop, as on a STOP DEPART stamped with the expiry (R87). That this departure sets last seen and the stale deadline as a report acted on does (R44) is log 24, and that an expiry may be taken later
than its deadline is log 10. -/
def Obligations.DwellExpiryRaisesItsAnomaly : Prop :=
  ∀ (s : State) (k : SetNo) (w : Way) (t : Track) (d : Clock) (a : ApproachNo) (stop : Nat) (arrived : Clock),
    s.stall = none → s.track { set := k, way := w } = some t → t.dwellDeadline = some d → s.due (some d) = true →
    t.state = .dwelling → t.approach = some a → t.dwellStop = some stop → t.stopArrive = some arrived →
    (s.image.enables.referral.get 3 = true → s.referral = none →
      ∃ s' u, exec (.dwellDeadline k w) s = .next s' ∧
        s'.referral = some { cls := .dwell, vehicle := t.vehicle, place := .approach a, held := .dwell,
                             figures := .dwell stop arrived s.image.dwellCap, opening := s.clock,
                             deadline := after s.clock s.image.referralTimeout, superseded := 0 } ∧
        s'.track { set := k, way := w } = some u ∧ u.vehicle = t.vehicle ∧ u.state = .dwelling ∧ u.referralOpen = true ∧
        u.superseded = 0 ∧ u.dwellDeadline = none ∧ s'.steady = s.steady) ∧
      (s.image.enables.referral.get 3 = false ∨ s.referral ≠ none →
        ∃ s', exec (.dwellDeadline k w) s = .next s' ∧ s'.anomalyFlags.get 3 = true ∧ s'.steady = s.steady ∧
          s.departs s' { set := k, way := w } t a stop s.clock)

/-- R44, R152: a report that fails a screening test is discarded, and changes nothing of the unit but its slot: one of an approach that is not enabled; one of a vehicle that is
not in the table, but a CHECK-IN; one stamped earlier than its track's last seen time; one, other than a CHECK-IN or CHECK-OUT, of another approach than the track's, or for an EXPECTED track
(R51); and a stop report that names no served stop. One taken for a track whose referral is open is discarded and counted. -/
def Obligations.OpenReferralSupersedesReports : Prop :=
  ∀ (s : State) (k : SlotNo) (r : Report), s.picks k r → s.linkSettled →
    let onApproach : Prop := (∀ route D sp dev, r.body ≠ .checkIn route D sp dev) ∧ r.body ≠ .checkOut
    (s.image.enabled r.approach = false → exec .takeReport s = .next (s.emptied k)) ∧
      (s.lookup r.vehicle = none → (∀ route D sp dev, r.body ≠ .checkIn route D sp dev) → exec .takeReport s = .next (s.emptied k)) ∧
      ∀ (p : Place) (t : Track), s.image.enabled r.approach = true → s.lookup r.vehicle = some p → s.track p = some t →
        (t.referralOpen = true →
          exec .takeReport s = .next ((s.emptied k).putTrack p (some { t with superseded := min 255 (t.superseded + 1) }))) ∧
          (t.referralOpen = false →
            ((∃ seen, t.lastSeen = some seen ∧ earlier r.stamp seen = true) ∨ (onApproach ∧ (t.approach ≠ some r.approach ∨ t.state = .expected)) ∨
              ∃ stop dev, (r.body = .stopArrive stop dev ∨ r.body = .stopDepart stop dev) ∧
                (s.image.isStop r.approach stop = false ∨
                  ∃ x, (s.image.reachesInUse r.approach)[stop]? = some x ∧ x.dwellMode = .none)) →
            exec .takeReport s = .next (s.emptied k))

/-! ### Anomalies and rulings (Chapter 8) -/

/-- R47, R147–R151: a CHECK-IN that misses on an unplaced route raises UNPLACED, which is always referable: where no referral is open, AU holds the report, opens
the referral and offers its REFERRAL notice, and no track is made. -/
def Obligations.UnplacedCheckInIsReferred : Prop :=
  ∀ (s : State) (k : SlotNo) (r : Report) (route D sp : Nat) (dev : Option Int), s.stall = none → s.linkSettled →
    s.corridorQueue = [] → s.chosenSlot = some k → (s.slots.get k).report = some r → r.body = .checkIn route D sp dev →
    s.image.enabled r.approach = true → s.lookup r.vehicle = none → s.image.placeRoute route = none → s.referral = none →
    exec .takeReport s =
      .next (({ s with
        slots := s.slots.set k { s.slots.get k with code := .empty, report := none }
        lastCause := some { cls := .unplaced, vehicle := r.vehicle, place := .approach r.approach, time := s.clock }
        referral := some { cls := .unplaced, vehicle := r.vehicle, place := .approach r.approach, held := .report r true none,
                           figures := .unplaced route, opening := s.clock, deadline := after s.clock s.image.referralTimeout,
                           superseded := 0 } } : State).offered
        (.referral .unplaced r.vehicle (.approach r.approach) s.clock (.unplaced route) none (some route)))

/-- R44, R54, R55, R87, R107, R153–R156: a RULE with no referral open is NO_REFERRAL, one that names another class or vehicle STALE_RULING, and one with another code, or with a
SUBSTITUTE that its class does not take, RANGE; none of these changes anything. An accepted ruling empties the slot, sets no flag, and hands its matter back: an UNPLACED
report is dropped, or allocates with the group given; a conflict returns its junction to IDLE with a carry of the vehicle preferred, and its list in order (log 57); a report or dwell of a track is dropped by
DISCARD, its listed request reviewed with referred no (stated under a stale mirror), and acts at the default or the clamped substituted distance, or with the remaining dwell, otherwise. A substituted
distance of 0 is the passage of any held report. A report held for HORIZON acts at its own distance, a stop report at its stop's as the image then stands; that it acts at the distance which an earlier
default or substitution has left is log 21. That the departure at a DWELL default sets last seen and the stale deadline is log 24. That a reply to DEFAULT or DISCARD carries its value as absent
is the model's choice (log 18). -/
def Obligations.RulingsCloseReferrals : Prop :=
  ∀ (s : State) (number : Byte) (x : Ruling), s.marker = false → (x.ruling ≠ 2 ∨ x.value ≠ none) →
    let c : Instr := .rule { number := number, body := some x }
    let h : State := s.hunt .supervisor
    (s.referral = none → exec c s = .next (h.replied 0x0E number .noReferral .empty)) ∧
      ∀ f : Referral, s.referral = some f →
        ((anomalyIndex f.cls).val ≠ x.cls ∨ f.vehicle ≠ x.vehicle → exec c s = .next (h.replied 0x0E number .staleRuling .empty)) ∧
          ((anomalyIndex f.cls).val = x.cls → f.vehicle = x.vehicle →
            let ok (w : Option Nat) : ReplyBody := .ruling x.cls x.vehicle x.ruling w
            let closed : State := { h with referral := none }
            (3 ≤ x.ruling → exec c s = .next (h.replied 0x0E number .range .empty)) ∧
              (∀ v, x.ruling = 2 → x.value = some v →
                f.cls = .horizon ∨ f.cls = .unplaced ∧ 8 ≤ v ∨ f.cls = .conflict ∧ v ≠ f.vehicle ∧ f.other ≠ some v →
                exec c s = .next (h.replied 0x0E number .range .empty)) ∧
              (f.cls = .unplaced → (∃ r b o, f.held = .report r b o) → s.stall = none → (x.ruling = 0 ∨ x.ruling = 1) →
                exec c s = .next (closed.replied 0x0E number .ok (ok none))) ∧
              (∀ (r : Report) (b : Bool) (o : Option Nat) (route D sp : Nat) (dev : Option Int) (g : GroupNo), f.cls = .unplaced → f.held = .report r b o →
                r.body = .checkIn route D sp dev → x.ruling = 2 → x.value = some g.val → s.stall = none → s.image.enabled r.approach = true →
                s.lookup r.vehicle = none →
                let reaches := s.image.reachesInUse r.approach
                let m := predictTimes reaches (s.image.approach r.approach).trust { lastDeparted := none, dwellStop := none, stopArrive := none }
                  none none D sp r.stamp
                let old := s.sets.get (placeOf r.vehicle .a).set
                old.a = none ∨ old.b = none → 1 ≤ D → D ≤ boundary reaches 0 → m.delta ≤ s.image.horizon →
                s.due (some (after r.stamp s.image.staleTime)) = false →
                ∃ (v : State) (u : Track), exec c s = .next (v.replied 0x0E number .ok (ok (some g.val))) ∧ v.anomalyFlags.get 5 = s.anomalyFlags.get 5 ∧
                  v.track (placeOf r.vehicle (if old.a = none then .a else .b)) = some u ∧ u.vehicle = r.vehicle ∧ u.route = route ∧
                  u.group = g ∧ u.state = .approaching ∧ s.image.writesEta r.approach m D sp r.stamp (dev.map deviationDs) g u) ∧
              (∀ (j : JunctionNo) (w o : Nat) (value preferred : Option Nat), f.cls = .conflict → f.held = .conflict w o → f.place = .junction j →
                (s.junction j).state = .awaitRuling → (s.junction j).stale = true →
                x.ruling = 0 ∧ value = none ∧ preferred = some w ∨ x.ruling = 1 ∧ value = none ∧ preferred = none ∨
                  x.ruling = 2 ∧ value = x.value ∧ preferred = value ∧ (value = some f.vehicle ∨ value = f.other) →
                exec c s =
                  .next (((closed.setJunction j { (s.junction j).restored with
                    list := f.reorder j (s.junction j).list, state := .idle, carry := some { preferred := preferred } }).reviewed
                    j).replied 0x0E number .ok (ok value))) ∧
              (∀ (p : Place) (t : Track), f.cls ≠ .unplaced → f.cls ≠ .conflict → (∀ w o, f.held ≠ .conflict w o) → x.ruling = 1 → s.stall = none →
                s.lookup f.vehicle = some p → s.track p = some t → t.referralOpen = true → t.listed = none →
                exec c s = .next ((closed.putTrack p (some { t with referralOpen := false })).replied 0x0E number .ok (ok none))) ∧
              (∀ (p : Place) (t : Track) (j : JunctionNo), f.cls ≠ .unplaced → f.cls ≠ .conflict → (∀ w o, f.held ≠ .conflict w o) → x.ruling = 1 →
                s.stall = none → s.lookup f.vehicle = some p → s.track p = some t → t.referralOpen = true → t.listed = some j →
                (s.junction j).stale = true →
                exec c s =
                  .next ((((closed.putTrack p (some { t with referralOpen := false })).setJunction j { s.junction j with
                    list := (s.junction j).list.map fun y => if y.vehicle = t.vehicle then { y with referred := false } else y }).reviewed
                      j).replied 0x0E number .ok (ok none))) ∧
              (∀ (p : Place) (t : Track) (r : Report) (b : Bool) (o : Option Nat), f.cls = .distance ∨ f.cls = .reversal → f.held = .report r b o →
                s.stall = none → s.lookup f.vehicle = some p → s.track p = some t → t.referralOpen = true →
                t.state = .approaching ∨ t.state = .dwelling → t.approach = some r.approach → f.place = .approach r.approach →
                s.image.enabled r.approach = true → x.ruling = 2 → x.value = some 0 → s.due (some (after r.stamp s.image.staleTime)) = false →
                ∃ v : State, exec c s = .next (v.replied 0x0E number .ok (ok (some 0))) ∧ s.passesAt v p t r) ∧
              (∀ (p : Place) (t : Track) (r : Report) (stop : Nat) (dev : Option Int), f.cls = .horizon → s.holdsDeparture f p t r stop dev →
                x.ruling = 0 →
                ∃ v : State, exec c s = .next (v.replied 0x0E number .ok (ok none)) ∧ s.departureReturned v p t r stop dev) ∧
              (∀ (p : Place) (t : Track) (r : Report) (candidate : Option Nat) (D sp : Nat) (dev : Option Int), s.holdsPosition f p t r D sp dev →
                f.held = .report r false candidate →
                let length := boundary (s.image.reachesInUse r.approach) 0
                (f.cls = .distance → x.ruling = 0 → min D length ≤ t.distance + s.image.reversalTolerance →
                  ∃ v : State, exec c s = .next (v.replied 0x0E number .ok (ok none)) ∧ s.positionReturned v p t r (min D length) sp dev true) ∧
                  (f.cls = .reversal → x.ruling = 0 →
                    ∃ v : State, exec c s = .next (v.replied 0x0E number .ok (ok none)) ∧ s.positionReturned v p t r t.distance sp dev true) ∧
                  (f.cls = .horizon → x.ruling = 0 →
                    ∃ v : State, exec c s = .next (v.replied 0x0E number .ok (ok none)) ∧ s.positionReturned v p t r (candidate.getD D) sp dev false) ∧
                  ∀ n, (f.cls = .distance ∧ min n length ≤ t.distance + s.image.reversalTolerance ∨ f.cls = .reversal) → f.place = .approach r.approach →
                    x.ruling = 2 → x.value = some n →
                    ∃ v : State, exec c s = .next (v.replied 0x0E number .ok (ok (some (min n length)))) ∧
                      s.positionReturned v p t r (min n length) sp dev true) ∧
              ∀ (p : Place) (t : Track) (a : ApproachNo) (stop : Nat) (arrived : Clock), f.cls = .dwell → f.held = .dwell → s.stall = none →
                s.lookup f.vehicle = some p → s.track p = some t → t.referralOpen = true → t.state = .dwelling → t.approach = some a →
                t.dwellStop = some stop → t.stopArrive = some arrived →
                (x.ruling = 0 →
                  ∃ v : State, exec c s = .next (v.replied 0x0E number .ok (ok none)) ∧ s.departs v p t a stop f.opening) ∧
                  ∀ n, x.ruling = 2 → x.value = some n →
                    let remaining := min n 1200
                    let reaches := s.image.reachesInUse a
                    let m := predictTimes reaches (s.image.approach a).trust
                      { lastDeparted := t.lastDeparted, dwellStop := some stop, stopArrive := some arrived } reaches[stop]? (some remaining) t.distance
                      t.speed s.clock
                    1 ≤ t.distance → t.distance ≤ boundary reaches 0 → m.delta ≤ s.image.horizon →
                    s.due (some (after s.clock s.image.dwellCap)) = false →
                    ∃ (v : State) (u : Track), exec c s = .next (v.replied 0x0E number .ok (ok (some remaining))) ∧ v.track p = some u ∧ u.vehicle = t.vehicle ∧
                      u.state = .dwelling ∧ u.referralOpen = false ∧ u.dwellStop = some stop ∧
                      u.dwellDeadline = some (after s.clock s.image.dwellCap) ∧
                      s.image.writesEta a m t.distance t.speed s.clock t.deviation t.group u)

/-- R44, R54, R87, R154, R156, R157: at the referral deadline AU empties the slot, so that a referral that then stands was opened at the expiry; it sets the class's flag, and the matter ends
by its default. A conflict returns its junction to IDLE with a carry preferring the winner, and its list in order (log 57); a report held for its distance acts at the length of the approach, one held for a reversal at the
track's distance, and one held for the horizon without an ETA, at its own distance, a stop report at its stop's as the image then stands; that it acts at the distance which an earlier default or
substitution has left is log 21. A dwell ends in a departure at the opening time, and that this sets last seen and the stale deadline is log 24. An UNPLACED report is dropped, and so is one whose
approach is disabled (as it stands at the return: log 54). While TM is stalled a report or dwell waits for it. Before the deadline, and with no referral open, nothing happens, and a deadline that
the clock has passed acts as one it stands at (log 10). -/
def Obligations.ReferralDeadlineAppliesTheDefault : Prop :=
  ∀ s : State,
    (∀ f : Referral, s.referral = some f → s.due (some f.deadline) = true →
      let c : Instr := .referralDeadline
      let closed : State := { s with referral := none, anomalyFlags := s.anomalyFlags.set (anomalyIndex f.cls) true }
      (∃ t, exec c s = .next t ∧ t.anomalyFlags.get (anomalyIndex f.cls) = true ∧ t.steady = s.steady ∧
        ∀ f', t.referral = some f' → f'.opening = s.clock ∧ f'.deadline = after s.clock s.image.referralTimeout) ∧
        (f.cls = .unplaced → (∃ r b o, f.held = .report r b o) → s.stall = none → s.linkSettled → exec c s = .next closed) ∧
        ((∀ w o, f.held ≠ .conflict w o) → s.stall ≠ none → s.linkSettled →
          exec c s = .next { closed with waiting := s.waiting ++ [.returned { referral := f, disposal := .default }] }) ∧
        (∀ (j : JunctionNo) (w o : Nat), f.held = .conflict w o → f.place = .junction j → (s.junction j).state = .awaitRuling →
          (s.junction j).stale = true → s.linkSettled →
          exec c s =
            .next ((closed.setJunction j { (s.junction j).restored with
              list := f.reorder j (s.junction j).list, state := .idle, carry := some { preferred := some w } }).reviewed j)) ∧
        (∀ (p : Place) (t : Track) (r : Report) (stop : Nat) (dev : Option Int), f.cls = .horizon → s.holdsDeparture f p t r stop dev →
          ∃ v, exec c s = .next v ∧ s.departureReturned v p t r stop dev) ∧
        (∀ (p : Place) (t : Track) (r : Report) (candidate : Option Nat) (D sp : Nat) (dev : Option Int), s.holdsPosition f p t r D sp dev →
          f.held = .report r false candidate →
          let length := boundary (s.image.reachesInUse r.approach) 0
          (f.cls = .distance → min D length ≤ t.distance + s.image.reversalTolerance →
            ∃ v, exec c s = .next v ∧ s.positionReturned v p t r (min D length) sp dev true) ∧
            (f.cls = .reversal → ∃ v, exec c s = .next v ∧ s.positionReturned v p t r t.distance sp dev true) ∧
            (f.cls = .horizon → ∃ v, exec c s = .next v ∧ s.positionReturned v p t r (candidate.getD D) sp dev false)) ∧
        (∀ (p : Place) (t : Track) (a : ApproachNo) (stop : Nat), f.cls = .dwell → f.held = .dwell → s.stall = none →
          s.lookup f.vehicle = some p → s.track p = some t → t.referralOpen = true → t.state = .dwelling → t.approach = some a →
          t.dwellStop = some stop → ∃ v, exec c s = .next v ∧ s.departs v p t a stop f.opening) ∧
        ∀ (p : Place) (t : Track) (r : Report) (b : Bool) (o : Option Nat), f.held = .report r b o → f.cls ≠ .unplaced → s.image.enabled r.approach = false →
          s.stall = none → s.linkSettled → s.lookup f.vehicle = some p → s.track p = some t → t.referralOpen = true → t.listed = none →
          exec c s = .next (closed.putTrack p (some { t with referralOpen := false }))) ∧
      (∀ f : Referral, s.referral = some f → s.due (some f.deadline) = false → exec .referralDeadline s = .next s) ∧
      (s.referral = none → exec .referralDeadline s = .next s)

/-! ### The Corridor Description (Chapter 1) -/

/-- R5–R16, R19 step 3: every field of the working image, of the snapshot of a running commit and of a stored image that passes its check stays in its range,
whatever a write carries; the built-in defaults lie in theirs. -/
def Obligations.ConfigurationStaysInRange : Prop :=
  (∀ s t : State, s.configInRange → step s = .next t → t.configInRange) ∧ builtInDefaults.inRange

/-- R5–R9, R11–R17, R19, R21, R22, R134, R137, R140, R175: a write whose values do not fit the table is MALFORMED; one with a coded field outside its values, or an index beyond the
table, is RANGE; an accepted write replaces its entry, clamped, in the working image and is answered OK with the entry as stored. Of a GATE, REACH, ENTRY, ROUTE RANGE, GROUP, CLASS or
PHASE write, and of a write of a parameter other than the averaging interval, that is all. An approach rebound or disabled has its requests withdrawn, with no phantom; a JUNCTION
write clears the junction that it takes away (R134, R175), and with a lowered phase count turns off the enables beyond it and turns stale a mirror beyond it; a LEVEL write has every present junction
reviewed; an averaging interval raised from 0 forms its deadline. Which numbers and switches are RANGE, and which of the ordinary bodies the reply carries, rests on logs 15, 18 and 20. -/
def Obligations.WritesReplaceTheirEntry : Prop :=
  ∀ (s : State) (number : Byte) (w : ConfigWrite), s.marker = false →
    let c : Instr := .writeConfig { number := number, body := some w }
    let size : WrittenEntry → Nat
      | .junction _ _ => 4
      | .phase _ _ _ _ _ => 32
      | .gate _ _ _ _ => 4
      | .approach _ _ _ _ _ _ => 16
      | .reach _ _ _ _ _ => 128
      | .entry _ _ => 4
      | .routeRange _ _ _ => 16
      | .group _ => 8
      | .cls _ => 4
      | .level _ _ => 4
      | .enables _ _ _ _ => 1
      | .parameter _ => 23
    (fitsTable w.values = false → exec c s = .next ((s.hunt .supervisor).replied 0x09 number .malformed .empty)) ∧
      (fitsTable w.values = true → checkWrite w = none →
        exec c s = .next ((s.hunt .supervisor).replied 0x09 number .range .empty)) ∧
      (size w.values ≤ w.index → checkWrite w = none) ∧
      (let out (values : WrittenEntry) : Prop := ∀ i, fitsTable values = true → checkWrite { index := i, values := values } = none
       (∀ present count, 2 ≤ present → out (.junction present count)) ∧
         (∀ split n k x guarded, 2 ≤ guarded → out (.phase split n k x guarded)) ∧
         (∀ mode m u tu, 2 ≤ mode ∨ 2 ≤ m ∨ 2 ≤ u → out (.gate mode m u tu)) ∧
         (∀ length cruise stop mode dwell, 2 ≤ stop ∨ 4 ≤ mode → out (.reach length cruise stop mode dwell)) ∧
         (∀ (a g l r : List Nat) (b : Nat), 2 ≤ b → b ∈ a ∨ b ∈ g ∨ b ∈ l ∨ b ∈ r → out (.enables a g l r)) ∧
         (∀ v, 2 ≤ v → checkWrite { index := 19, values := .parameter v } = none) ∧
         (∀ (j x : OptionalField) (phase count trust limit : Nat), 2 ≤ j.presence ∨ 2 ≤ x.presence →
           fitsTable (.approach j phase count trust x limit) = false) ∧
         ∀ (a : OptionalField) (link : Nat), 2 ≤ a.presence → fitsTable (.entry a link) = false) ∧
      (let fit (values : WrittenEntry) (i : Nat) (k : CheckedWrite) : Prop := checkWrite { index := i, values := values } = some k
       let upTo (n v : Nat) : Nat := min v n
       let between (lo hi v : Nat) : Nat := min hi (max lo v)
       let bit (b : Bool) : Nat := if b then 1 else 0
       let dwellCode : DwellMode → Nat
         | .none => 0
         | .fixed => 1
         | .reported => 2
         | .timedThenReported => 3
       (∀ (j : JunctionNo) (b : Bool) (count : Nat), fit (.junction (bit b) count) j.val (.junction j { present := b, phaseCount := between 2 8 count })) ∧
         (∀ (i : Fin 32) (split n k x : Nat) (b : Bool), fit (.phase split n k x (bit b)) i.val (.phase i
           { split := between 50 1200 split, minGreen := between 40 (between 50 1200 split) n, clearance := between 30 120 k,
             maxExtension := upTo 600 x, guarded := b })) ∧
         (∀ (j : JunctionNo) (mode : GateMode) (m u : Bool) (tu : Nat), fit (.gate (gateModeCode mode) (bit m) (bit u) tu) j.val
           (.gate j { mode := mode, m := m, u := u, tu := between 2 3 tu })) ∧
         (∀ (a : ApproachNo) (j x : Option Nat) (phase count trust limit : Nat),
           let field (o : Option Nat) : OptionalField := { presence := bit o.isSome, value := o.getD 0 }
           fit (.approach (field j) phase count trust (field x) limit) a.val (.approach a
             { junction := j.map (clampNumber 3), busPhase := clampNumber 7 phase, reachCount := between 1 8 count, trust := upTo 4 trust,
               exitTarget := x.map (clampNumber 3), secondaryLimit := upTo 3 limit })) ∧
         (∀ (i : Fin 128) (length cruise dwell : Nat) (b : Bool) (mode : DwellMode), fit (.reach length cruise (bit b) (dwellCode mode) dwell) i.val
           (.reach i { length := between 1 2000 length, cruise := between 10 250 cruise, stop := b, dwellMode := mode,
                       fixedDwell := upTo 1200 dwell })) ∧
         (∀ (x : EntryId) (a : Option Nat) (link : Nat), fit (.entry { presence := bit a.isSome, value := a.getD 0 } link) x.val
           (.entry x { approach := a.map (clampNumber 15), linkTime := upTo 6000 link })) ∧
         (∀ (i : Fin 16) (low high group : Nat), fit (.routeRange low high group) i.val
           (.routeRange i { low := between 1 4095 low, high := between 1 4095 high, group := clampNumber 7 group })) ∧
         (∀ (g : GroupNo) (v : Nat), fit (.group v) g.val (.group g (upTo 3 v))) ∧ (∀ (i : Fin 4) (v : Nat), fit (.cls v) i.val (.cls i (upTo 3 v))) ∧
         (∀ (i : Fin 4) (cap floor : Nat), fit (.level cap floor) i.val (.level i { cap := upTo 6000 cap, floor := between 1 4 floor })) ∧
         (∀ e : Enables, fit (.enables (e.approach.toList.map bit) (e.grantNotice.toList.map bit) (e.levelNotice.toList.map bit)
           (e.referral.toList.map bit)) 0 (.enables e)) ∧
         (∀ (n : Fin 23) (v : Nat), n ≠ 19 →
           fit (.parameter v) n.val (.parameter n (between (parameterRange n).1 (parameterRange n).2 v))) ∧
         ∀ v : Nat, v ≤ 1 → fit (.parameter v) 19 (.parameter 19 v)) ∧
      (let img := s.image
       (∀ i e, applyWrite img (.phase i e) = { img with phases := img.phases.set i e }) ∧
         (∀ j e, applyWrite img (.gate j e) = { img with gates := img.gates.set j e }) ∧
         (∀ a e, applyWrite img (.approach a e) = { img with approaches := img.approaches.set a e }) ∧
         (∀ i e, applyWrite img (.reach i e) = { img with reaches := img.reaches.set i e }) ∧
         (∀ x e, applyWrite img (.entry x e) = { img with entries := img.entries.set x e }) ∧
         (∀ i e, applyWrite img (.routeRange i e) = { img with routes := img.routes.set i e }) ∧
         (∀ g e, applyWrite img (.group g e) = { img with groups := img.groups.set g e }) ∧
         (∀ i e, applyWrite img (.cls i e) = { img with classes := img.classes.set i e }) ∧
         (∀ i e, applyWrite img (.level i e) = { img with levels := img.levels.set i e }) ∧
         (∀ e, applyWrite img (.enables e) = { img with enables := e }) ∧
         (∀ n v, n ≠ 15 → n ≠ 16 → n ≠ 17 → applyWrite img (.parameter n v) = { img with parameters := img.parameters.set n v }) ∧
         ∀ j e,
           let lowered := (img.junction j).present = true ∧ e.present = true ∧ e.phaseCount < (img.junction j).phaseCount
           let beyond (a : ApproachNo) : Prop := (img.approach a).junction = some j ∧ e.phaseCount ≤ (img.approach a).busPhase.val
           let new := applyWrite img (.junction j e)
           new = { img with junctions := img.junctions.set j e, enables := { img.enables with approach := new.enables.approach } } ∧
             ∀ a : ApproachNo, new.enabled a = true ↔ img.enabled a = true ∧ ¬ (lowered ∧ beyond a)) ∧
      (∀ img : Image,
        (∀ j e, writtenBody img (.junction j e) = .entry (.junction (img.junctions.get j))) ∧
          (∀ i e, writtenBody img (.phase i e) = .entry (.phase (img.phases.get i))) ∧
          (∀ j e, writtenBody img (.gate j e) = .entry (.gate (img.gates.get j))) ∧
          (∀ a e, writtenBody img (.approach a e) = .entry (.approach (img.approaches.get a))) ∧
          (∀ i e, writtenBody img (.reach i e) = .entry (.reach (img.reaches.get i))) ∧
          (∀ x e, writtenBody img (.entry x e) = .entry (.entry (img.entries.get x))) ∧
          (∀ i e, writtenBody img (.routeRange i e) = .entry (.routeRange (img.routes.get i))) ∧
          (∀ g v, writtenBody img (.group g v) = .entry (.group (img.groups.get g))) ∧
          (∀ i v, writtenBody img (.cls i v) = .entry (.cls (img.classes.get i))) ∧
          (∀ i e, writtenBody img (.level i e) = .entry (.level (img.levels.get i))) ∧
          (∀ e, writtenBody img (.enables e) = .entry (.enables img.enables)) ∧
          ∀ n v, n ≠ 15 → n ≠ 16 → n ≠ 17 → writtenBody img (.parameter n v) = .entry (.parameter (img.parameters.get n))) ∧
      ∀ k : CheckedWrite, fitsTable w.values = true → checkWrite w = some k → (s.lock && lockBars s.image k) = false →
        (applyWrite s.image k).consistent = true →
        (∃ u : State, exec c s = .next (u.replied 0x09 number .ok (writtenBody u.image k)) ∧ u.image = applyWrite s.image k ∧
          (∀ j e, k = .junction j e → (s.image.junction j).present = true →
            (e.present = false →
              (s.junction j).resetTo (s.image.gates.get j) (u.junction j) ∧ (u.junction j).used = 0 ∧
                (u.junction j).windowNumber = (s.junction j).windowNumber + 1 ∧ s.sends u (s.resetCancels [j])) ∧
              (e.present = true → e.phaseCount < (s.image.junction j).phaseCount →
                (∀ a, s.image.enabled a = true → u.image.enabled a = false → s.withdraws u a) ∧
                  ∀ m, (s.junction j).mirror = some m → e.phaseCount ≤ m.phase.val →
                    (u.junction j).mirror = some m ∧ (u.junction j).stale = true ∧ (u.junction j).staleDeadline = none)) ∧
          (∀ a e, k = .approach a e → (s.image.approach a).junction ≠ e.junction ∨ (s.image.approach a).busPhase ≠ e.busPhase → s.withdraws u a) ∧
          (∀ e a, k = .enables e → s.image.enabled a = true → e.approach.get a = false → s.withdraws u a) ∧
          ∀ i e, k = .level i e →
            (∀ j : JunctionNo, s.present j = true → ∀ y ∈ (u.junction j).list, claimsGrant y = false → y.tier < u.tierFloor j →
              y.state = .held ∧ (y.hold = some .gate ∨ y.hold = some .floor)) ∧
              ((∀ j, (s.junction j).stale = true) → ∀ j,
                u.junction j = if s.present j = true then (({ s with image := applyWrite s.image k } : State).reviewed j).junction j else s.junction j)) ∧
          (∀ v, k = .parameter 14 v → 0 < v → s.averagingDeadline = none →
            exec c s = .next (({ s.hunt .supervisor with image := applyWrite s.image k, averagingDeadline := some (after s.clock v) } : State).replied
              0x09 number .ok (.entry (.parameter v)))) ∧
          ((∀ e, k = .enables e → ∀ a, s.image.enabled a = true → e.approach.get a = true) →
            (∀ a e, k = .approach a e → (s.image.approach a).junction = e.junction ∧ (s.image.approach a).busPhase = e.busPhase) →
            (∀ j e, k = .junction j e →
              (s.image.junction j).present = false ∨ e.present = true ∧ (s.image.junction j).phaseCount ≤ e.phaseCount) →
            (∀ l e, k ≠ .level l e) → (∀ v, k = .parameter 14 v → v = 0 ∨ s.averagingDeadline ≠ none) →
            exec c s = .next (({ s.hunt .supervisor with image := applyWrite s.image k } : State).replied 0x09 number .ok
              (writtenBody (applyWrite s.image k) k)))

/-- R18: a write to one of the three level thresholds is followed, within the same write, by the ordering clamp, and its reply carries the thresholds as stored; no
level is compared at the write. A level whose threshold is 101 is reached by no rise. -/
def Obligations.ThresholdsAreOrdered : Prop :=
  (∀ (s : State) (number : Byte) (n v : Nat), s.marker = false → s.image.consistent = true → (n = 15 ∨ n = 16 ∨ n = 17) →
    let x := min 101 (max 1 v)
    let lo := if n = 15 then x else s.image.thresholdLo
    let mid0 := if n = 16 then x else s.image.thresholdMid
    let hi0 := if n = 17 then x else s.image.thresholdHi
    let mid := if mid0 ≤ lo then min 101 (lo + 1) else mid0
    let hi := if hi0 ≤ mid then min 101 (mid + 1) else hi0
    exec (.writeConfig { number := number, body := some { index := n, values := .parameter v } }) s =
      .next (({ s.hunt .supervisor with
        image := { s.image with parameters := ((s.image.parameters.set 15 lo).set 16 mid).set 17 hi } } : State).replied 0x09 number .ok
        (.thresholds lo mid hi))) ∧
    ∀ (img : Image) (l x : Level) (average : Nat), average ≤ 100 → img.threshold x = 101 → risenLevel img l average ≠ some x

/-- R14, R21, R172: SET ENABLES writes one group of switches whole and keeps the others; a group beyond the four is RANGE, and a group with another number of switches
MALFORMED. The lock does not reach it. Where it turns no approach off that is all it does; an approach turned off has its requests withdrawn. MALFORMED for a wrong number of switches is the model's choice (log 16). -/
def Obligations.EnablesAreWrittenByGroup : Prop :=
  ∀ (s : State) (number : Byte), s.marker = false →
    let carried (l : List Bool) : List Nat := l.map fun b => if b then 1 else 0
    let sends (g : Nat) (l : List Nat) : Instr := .setEnables { number := number, body := some { group := g, switches := l } }
    let x := s.image.enables
    (∀ g l, 4 ≤ g → exec (sends g l) s = .next ((s.hunt .supervisor).replied 0x0B number .range .empty)) ∧
      (∀ (g : Fin 4) l, l.length ≠ groupSize g →
        exec (sends g.val l) s = .next ((s.hunt .supervisor).replied 0x0B number .malformed .empty)) ∧
      (∀ v : Vector Bool 16, ({ s.image with enables := { x with approach := v } } : Image).consistent = true →
        (∃ u : State, exec (sends 0 (carried v.toList)) s = .next (u.replied 0x0B number .ok (.enables { x with approach := v })) ∧
          u.image = { s.image with enables := { x with approach := v } } ∧
          ∀ a, x.approach.get a = true → v.get a = false → s.withdraws u a) ∧
          ((∀ a : ApproachNo, x.approach.get a = true → v.get a = true) →
            exec (sends 0 (carried v.toList)) s =
              .next (({ s.hunt .supervisor with image := { s.image with enables := { x with approach := v } } } : State).replied 0x0B
                number .ok (.enables { x with approach := v })))) ∧
      (s.image.consistent = true →
        (∀ v : Vector Bool 4,
          exec (sends 1 (carried v.toList)) s =
            .next (({ s.hunt .supervisor with image := { s.image with enables := { x with grantNotice := v } } } : State).replied 0x0B
              number .ok (.enables { x with grantNotice := v }))) ∧
          (∀ v : Vector Bool 3,
            exec (sends 2 (carried v.toList)) s =
              .next (({ s.hunt .supervisor with image := { s.image with enables := { x with levelNotice := v } } } : State).replied 0x0B
                number .ok (.enables { x with levelNotice := v }))) ∧
          ∀ v : Vector Bool 5,
            exec (sends 3 (carried v.toList)) s =
              .next (({ s.hunt .supervisor with image := { s.image with enables := { x with referral := v } } } : State).replied 0x0B
                number .ok (.enables { x with referral := v })))

/-! ### Junctions (Chapters 5 and 6) -/

/-- R109, R110: an accepted PHASE STATUS makes the mirror, stamped with its arrival, fresh for 30 ds; one for a junction that is not present, or with a phase beyond
its ring, is discarded. At the stale deadline the contents are kept, and every entry that claims no grant is HELD, for a stale mirror or for an earlier reason. Before the deadline, and with none, nothing
happens, and a deadline that the clock has passed acts as one it stands at (log 10). -/
def Obligations.MirrorsAreFreshForThirty : Prop :=
  (∀ (s : State) (r : PhaseStatusFrame),
    (∀ (j : JunctionNo) (p : PhaseNo), r.junction = j.val → s.present j = true → r.phase = p.val →
      p.val < (s.image.junction j).phaseCount → s.stall = none → s.linkSettled →
      ∃ t, exec (.phaseStatus r) s = .next t ∧
        (t.junction j).mirror =
          some { phase := p, interval := r.interval, elapsed := r.elapsed, remaining := r.remaining, receipt := s.clock } ∧
        (t.junction j).stale = false ∧ (t.junction j).staleDeadline = some (after s.clock 30)) ∧
      ((∀ j : JunctionNo, r.junction = j.val → s.present j = false ∨ (s.image.junction j).phaseCount ≤ r.phase ∨ 8 ≤ r.phase) →
        exec (.phaseStatus r) s = .next (s.hunt .signal))) ∧
    ∀ (s : State) (j : JunctionNo), s.linkSettled →
      (s.due (s.junction j).staleDeadline = true →
        let x : Junction := { s.junction j with stale := true, staleDeadline := none }
        exec (.mirrorStale j) s = .next ((s.setJunction j x).reviewed j) ∧
          ∀ y ∈ (((s.setJunction j x).reviewed j).junction j).list, claimsGrant y = false →
            y.state = .held ∧
              y.hold ∈ [some .gate, some .floor, some .unconfirmed, some .dwelling, some .referral, some HoldReason.staleMirror]) ∧
        (s.due (s.junction j).staleDeadline = false → exec (.mirrorStale j) s = .next s)

/-- R99, R103–R107, R112–R115, R117, R120, R121, R124, R125, R130: the judgement of a request is spelled out for a green bus phase, and for the other phase of a ring of two. At a mirror update an
IDLE junction judges its admissible entries. One alone that wins begins its grant, the gate saved and closed and its EXTEND or EARLY sent; one that the plan serves is SERVED_BY_PLAN. Of two, the
first that wins begins its grant: an entry judged otherwise takes its state and last verdict and is passed. A winner followed by an admissible entry of its tier, of another phase, within the conflict
window, raises CONFLICT: where that is referable and no referral open, both requests are referred and the junction awaits the ruling; otherwise the class is flagged and the grant begins. Under a carry no
conflict test is made, the preferred vehicle is judged first, and the carry is gone. At an IN_FORCE junction with an EXTEND grant the grant tests are made: an entry of
the grant's phase that arrives within its window becomes RIDING, pinned and recorded; an admissible entry of the other phase that an EARLY would serve becomes the target of a pre-emption,
whose CANCEL is sent; and a holder that arrives after the bound has its EXTEND stretched, as far as the phase and the budget allow, or keeps its grant as it stands. -/
def Obligations.EvaluationsBeginGrants : Prop :=
  (∀ (s : State) (j : JunctionNo) (m : Mirror) (x : Entry), (s.junction j).mirror = some m → (s.junction j).grant = none →
    let p := x.busPhase
    let due := after x.eta s.image.clearMargin
    let left := s.budgetLeft j
    let is (v : Verdict) : Prop := s.judge j x = v
    (later x.eta s.clock = false → is (.keep .miss)) ∧
      (later x.eta s.clock = true →
        (let ge := after m.receipt m.remaining
         let amount := elapsed due ge
         let limit := (s.image.phase j p).maxExtension
         p = m.phase → m.interval = .green → later (m.receipt - BitVec.ofNat 32 m.elapsed) x.eta = false →
         (atOrAfter ge due = true → is (.keep .servedByPlan)) ∧
           (atOrAfter ge due = false →
             (limit < amount → is (.keep .limit)) ∧ (amount ≤ limit → left < amount → is (.keep .budget)) ∧
               (amount ≤ limit → amount ≤ left → is (.extend amount)))) ∧
          (let c := s.image.phase j m.phase
           let gs := after m.receipt (m.remaining + if m.interval = .green then c.clearance else 0)
           let saving := if m.interval = .green ∧ c.guarded = false then m.remaining - (c.minGreen - m.elapsed) else 0
           let want := min saving (elapsed gs x.eta)
           let cut := min want left
           p ≠ m.phase → (s.image.junction j).phaseCount = 2 → p.val < 2 → m.phase.val < 2 →
           (later gs x.eta = true →
             (s.image.minimumCut ≤ cut → is (.early (if cut = 0 then [] else [(m.phase, cut)]))) ∧
               (cut < s.image.minimumCut → left < want → is (.keep .budget)) ∧
               (cut < s.image.minimumCut → want ≤ left → is (.keep .tooSmall))) ∧
             (later gs x.eta = false →
               let ge := after gs (s.image.phase j p).split
               (atOrAfter ge due = true → is (.keep .servedByPlan)) ∧ (atOrAfter ge due = false → is (.keep .defer)))))) ∧
  (∀ (s : State) (r : PhaseStatusFrame) (j : JunctionNo) (q : PhaseNo) (x y : Entry), s.stall = none → s.linkSettled → r.junction = j.val →
    s.present j = true → r.phase = q.val → q.val < (s.image.junction j).phaseCount → (s.junction j).state = .idle → (s.junction j).grant = none →
    (s.junction j).outstanding = none → (s.junction j).list = [x, y] → x.vehicle ≠ y.vehicle → claimsGrant x = false → claimsGrant y = false →
    let c : Instr := .phaseStatus r
    let s' := s.mirrored j { phase := q, interval := r.interval, elapsed := r.elapsed, remaining := r.remaining, receipt := s.clock }
    admissible s' j x = true → admissible s' j y = true →
    let wins (z : Entry) (o : Order) : Prop :=
      (∃ n, s'.judge j z = .extend n ∧ o = .extend z.busPhase n) ∨ ∃ cuts, s'.judge j z = .early cuts ∧ o = .early z.busPhase cuts
    let begins (z : Entry) (o : Order) : Prop := ∃ t, exec c s = .next t ∧ s'.beginsGrant t j z o
    let beginsPast (z : Entry) (v : LastVerdict) (w : Entry) (o : Order) : Prop := ∃ t, exec c s = .next t ∧ s'.beginsGrant t j w o ∧
      ∃ z' ∈ (t.junction j).list, z'.vehicle = z.vehicle ∧ z'.verdict = some v ∧ claimsGrant z' = false
    let quiet (t : State) : Prop := (t.junction j).grant = none ∧ t.signalFrame = s.signalFrame ∧ t.signalWaiting = s.signalWaiting
    let passed (z : Entry) (v : LastVerdict) : Nat × RequestState × Option LastVerdict :=
      (z.vehicle, if v = .servedByPlan then .servedByPlan else .waiting, some v)
    let shown (t : State) := (t.junction j).list.map fun z => (z.vehicle, z.state, z.verdict)
    ((s.junction j).carry = none →
      (∀ v o, s'.judge j x = .keep v → wins y o → beginsPast x v y o) ∧
        (∀ v w, s'.judge j x = .keep v → s'.judge j y = .keep w →
          ∃ t, exec c s = .next t ∧ (t.junction j).state = .idle ∧ quiet t ∧ shown t = [passed x v, passed y w]) ∧
        ∀ o, wins x o →
          let claim (z : Entry) : Claim := { vehicle := z.vehicle, tier := z.tier, busPhase := z.busPhase, eta := z.eta }
          let conflict : Prop := y.tier = x.tier ∧ y.busPhase ≠ x.busPhase ∧ elapsed y.eta x.eta ≤ s.image.conflictWindow
          (¬ conflict → begins x o) ∧
            (conflict → s.image.enables.referral.get 4 = true → s.referral = none →
              ∃ t, exec c s = .next t ∧ (t.junction j).state = .awaitRuling ∧ quiet t ∧
                t.referral = some { cls := .conflict, vehicle := x.vehicle, place := .junction j, held := .conflict x.vehicle y.vehicle,
                                    figures := .conflict (claim x) (claim y), opening := s.clock,
                                    deadline := after s.clock s.image.referralTimeout, superseded := 0 } ∧
                shown t = [(x.vehicle, .waiting, none), (y.vehicle, if y.state = .held then .waiting else y.state, y.verdict)] ∧
                t.carries { number := s.noticeCounter, body := .referral .conflict x.vehicle (.junction j) s.clock (.conflict (claim x) (claim y))
                              (some y.vehicle) none }) ∧
            (conflict → s.image.enables.referral.get 4 = false ∨ s.referral ≠ none →
              ∃ t, exec c s = .next t ∧ s'.beginsGrant t j x o ∧ t.anomalyFlags.get 4 = true ∧ t.referral = s.referral ∧
                t.lastCause = some { cls := .conflict, vehicle := x.vehicle, place := .junction j, time := s.clock })) ∧
      ∀ preferred, (s.junction j).carry = some { preferred := preferred } →
        (preferred = some y.vehicle →
          (∀ o, wins y o → begins y o) ∧ ∀ v o, s'.judge j y = .keep v → wins x o → beginsPast y v x o) ∧
          (preferred ≠ some y.vehicle →
            (∀ o, wins x o → begins x o) ∧ ∀ v o, s'.judge j x = .keep v → wins y o → beginsPast x v y o)) ∧
  (∀ (s : State) (r : PhaseStatusFrame) (j : JunctionNo) (p q : PhaseNo) (x : Entry), s.stall = none → s.linkSettled → r.junction = j.val →
    s.present j = true → r.phase = q.val → q.val < (s.image.junction j).phaseCount → r.interval = .green →
    (s.junction j).state = .idle → (s.junction j).carry = none → (s.junction j).grant = none → (s.junction j).outstanding = none →
    (s.junction j).list = [x] → claimsGrant x = false → x.busPhase = p → gateAdmits (s.junction j).gate x.tier = true →
    s.tierFloor j ≤ x.tier → ((s.reliability.get x.approach).tagged = false ∨ x.confirmed = true) → x.suspended = false → x.referred = false →
    later x.eta s.clock = true →
    let due := after x.eta s.image.clearMargin
    let gate := (s.junction j).gate
    let begun (t : State) (o : Order) (start bound : Clock) (kind : GrantKind) (planned : Option Clock) : Prop :=
      (t.junction j).state = .ordering ∧ (t.junction j).saved = some gate ∧ (t.junction j).sequenceBorrowed = 0 ∧
        (t.junction j).gate = { gate with m := true, u := gate.u || (gate.mode == .split && decide (gate.tu ≤ x.tier)) } ∧
        (t.junction j).outstanding =
          some { order := o, tag := (s.junction j).tagCounter, deadline := after s.clock 20, ofGrant := true } ∧
        (t.junction j).tagCounter = (s.junction j).tagCounter + 1 ∧
        s.sends t [{ junction := j, tag := (s.junction j).tagCounter, order := o }] ∧
        (t.junction j).list = [{ x with state := .granted, hold := none, verdict := none }] ∧
        ∃ g, (t.junction j).grant = some g ∧ g.holder = some { vehicle := x.vehicle, way := x.way } ∧ g.busPhase = p ∧ g.kind = kind ∧
          g.windowStart = start ∧ g.bound = bound ∧ g.plannedEnd = planned ∧ g.cut = 0 ∧ g.extensionInForce = 0 ∧ g.cutCharged = 0 ∧
          g.extensionCharged = 0 ∧ g.closing = false
    (p = q → later (s.clock - BitVec.ofNat 32 r.elapsed) x.eta = false →
      let ge := after s.clock r.remaining
      let amount := elapsed due ge
      (atOrAfter ge due = false → amount ≤ (s.image.phase j p).maxExtension → amount ≤ s.budgetLeft j →
        ∃ t, exec (.phaseStatus r) s = .next t ∧
          begun t (.extend p amount) (s.clock - BitVec.ofNat 32 r.elapsed) (after ge amount) .extend (some ge)) ∧
        (atOrAfter ge due = true →
          ∃ t y, exec (.phaseStatus r) s = .next t ∧ (t.junction j).list = [y] ∧ y.vehicle = x.vehicle ∧ y.state = .servedByPlan ∧
            y.verdict = some .servedByPlan ∧ (t.junction j).state = .idle ∧ (t.junction j).grant = none ∧
            t.signalFrame = s.signalFrame ∧ t.signalWaiting = s.signalWaiting)) ∧
      (p ≠ q → (s.image.junction j).phaseCount = 2 → p.val < 2 → (s.image.phase j q).guarded = false →
        let gs := after s.clock (r.remaining + (s.image.phase j q).clearance)
        let saving := r.remaining - ((s.image.phase j q).minGreen - r.elapsed)
        let cut := min (min saving (elapsed gs x.eta)) (s.budgetLeft j)
        later gs x.eta = true → s.image.minimumCut ≤ cut → 1 ≤ cut →
        ∃ t, exec (.phaseStatus r) s = .next t ∧
          begun t (.early p [(q, cut)]) (gs - BitVec.ofNat 32 cut) (after (gs - BitVec.ofNat 32 cut) (s.image.phase j p).split) .early none)) ∧
  ∀ (s : State) (r : PhaseStatusFrame) (j : JunctionNo) (g : Grant) (pe : Clock) (h : Entry), s.stall = none → s.linkSettled → r.junction = j.val →
    s.present j = true → r.phase = g.busPhase.val → g.busPhase.val < (s.image.junction j).phaseCount → r.interval = .green →
    (s.junction j).state = .inForce → (s.junction j).outstanding = none → (s.junction j).grant = some g → g.kind = .extend → g.closing = false →
    g.ending = none → g.target = none → g.plannedEnd = some pe → g.holder = some { vehicle := h.vehicle, way := h.way } → h.state = .granted →
    h.busPhase = g.busPhase →
    let c : Instr := .phaseStatus r
    let left := s.budgetLeft j
    let due (y : Entry) : Clock := after y.eta s.image.clearMargin
    let open_ (y : Entry) : Prop := claimsGrant y = false ∧ s.tierFloor j ≤ y.tier ∧
      ((s.reliability.get y.approach).tagged = false ∨ y.confirmed = true) ∧ y.suspended = false ∧ y.referred = false ∧ later y.eta s.clock = true
    (∀ x : Entry, (s.junction j).list = [h, x] → x.vehicle ≠ h.vehicle → open_ x →
      (x.busPhase = g.busPhase → atOrAfter x.eta g.windowStart = true → atOrAfter g.bound (due x) = true → later (due h) g.bound = false →
        ∃ t, exec c s = .next t ∧ (t.junction j).list = [h, { x with state := .riding, hold := none }] ∧ (t.junction j).state = .inForce ∧
          (t.junction j).grant = some g ∧ (t.junction j).outstanding = none ∧ t.signalFrame = s.signalFrame ∧ t.signalWaiting = s.signalWaiting ∧
          ∀ u : Track, s.track (placeOf x.vehicle x.way) = some u → u.vehicle = x.vehicle → u.listed = some j →
            t.track (placeOf x.vehicle x.way) =
              some { u with pinned := true, action := if u.action = .none then .ride else u.action }) ∧
        (let e := s.image.phase j g.busPhase
         let gs := after s.clock (r.remaining + e.clearance)
         let cut := min (min (r.remaining - (e.minGreen - r.elapsed)) (elapsed gs x.eta)) left
         x.busPhase ≠ g.busPhase → (s.image.junction j).phaseCount = 2 → x.busPhase.val < 2 → e.guarded = false →
         gateAdmits (s.junction j).gate x.tier = true → later gs x.eta = true → s.image.minimumCut ≤ cut → 1 ≤ cut →
         ∃ t, exec c s = .next t ∧ s.sendsOrder t j .cancel ∧
           (t.junction j).list = [h, { x with state := .waiting, hold := none, verdict := none }] ∧
           (t.junction j).grant = some { g with target := some x.vehicle, closing := true, ending := some .preempted })) ∧
      ((s.junction j).list = [h] → later h.eta s.clock = true → later (due h) g.bound = true →
        let total := elapsed (due h) pe
        let allowed := total ≤ (s.image.phase j g.busPhase).maxExtension ∧ total ≤ g.extensionInForce + left
        (allowed →
          ∃ t, exec c s = .next t ∧ s.sendsOrder t j (.extend g.busPhase total) ∧ (t.junction j).list = [h] ∧
            (t.junction j).grant = some { g with candidate := some h.vehicle } ∧ (t.junction j).used = (s.junction j).used) ∧
          (¬ allowed →
            ∃ t, exec c s = .next t ∧ (t.junction j).list = [h] ∧ (t.junction j).state = .inForce ∧ (t.junction j).grant = some g ∧
              (t.junction j).outstanding = none ∧ t.signalFrame = s.signalFrame ∧ t.signalWaiting = s.signalWaiting))

/-- R118, R122, R125, R144: the ACCEPTED of a grant's EXTEND, with no order pending, charges the new time to the window, as far as the budget left takes it, and
makes the ordered total the extension in force; that of an EARLY charges its cut. The start notice goes out at the first. That an action of EARLY+EXTEND stays so is log 56. -/
def Obligations.AcceptedOrdersAreCharged : Prop :=
  ∀ (s : State) (j : JunctionNo) (o : Outstanding) (g : Grant), s.stall = none → s.linkSettled → s.present j = true →
    (s.junction j).outstanding = some o → o.ofGrant = true → (s.junction j).grant = some g → g.ending = none →
    (s.junction j).pendingOrder = none →
    let left := s.budgetLeft j
    (∀ p total, o.order = .extend p total →
      let taken := min (total - g.extensionInForce) left
      ∃ t g', exec (.ack j.val o.tag true) s = .next t ∧ (t.junction j).used = (s.junction j).used + taken ∧ (t.junction j).grant = some g' ∧
        g'.extensionInForce = total ∧ g'.extensionCharged = g.extensionCharged + taken ∧ g'.cutCharged = g.cutCharged ∧
        g'.chargeWindow = (s.junction j).windowNumber ∧ (∀ pe, g.plannedEnd = some pe → g'.bound = after pe total) ∧
        g'.startDue = false ∧
        ((s.junction j).stale = true → (t.junction j).state = .inForce ∧ (t.junction j).outstanding = none) ∧
        (g.startDue = true → s.image.enables.grantNotice.get j = true →
          t.carries { number := s.noticeCounter, body := .grantStart j g.lastHolder.vehicle p .extend total }) ∧
        ∀ (h : TrackRef) (u : Track), g.candidate = none → g.holder = some h → g.lastHolder = h →
          s.track (placeOf h.vehicle h.way) = some u → u.vehicle = h.vehicle → (u.state = .approaching ∨ u.state = .dwelling) →
          ∃ u', t.track (placeOf h.vehicle h.way) = some u' ∧ u'.vehicle = h.vehicle ∧ u'.borrowed = min 12000 (u.borrowed + taken) ∧
            u'.action = (if u.action = .early ∨ u.action = .earlyExtend then .earlyExtend else .extend)) ∧
      ∀ p cuts, o.order = .early p cuts →
        let cut := (cuts.map (·.2)).sum
        let taken := min cut left
        ∃ t g', exec (.ack j.val o.tag true) s = .next t ∧ (t.junction j).used = (s.junction j).used + taken ∧ (t.junction j).grant = some g' ∧
          g'.cut = cut ∧ g'.cutCharged = g.cutCharged + taken ∧ g'.extensionCharged = g.extensionCharged ∧ g'.startDue = false ∧
          (g.startDue = true → s.image.enables.grantNotice.get j = true →
            t.carries { number := s.noticeCounter, body := .grantStart j g.lastHolder.vehicle p .early cut })

/-- R100, R128–R132, R145: the ACCEPTED of a closing RELEASE or CANCEL ends the grant: the part of the charged extension not run is refunded to its window, the
borrowed time goes into the sequence total, the end notice is queued, the gate is restored, and the junction recovers for R ds, or is IDLE at once where R is 0. At the
ACCEPTED of a pre-emption's CANCEL (stated of a grant that no extension has been charged to) a target judged EARLY takes the junction over, the saved gate and the sequence kept; under a
stale mirror none does. A mirror update that shows the bus phase anywhere but green ends an EXTEND grant EXPIRED, as does the clearance of the bus phase an EARLY grant whose green was not
seen; the green of an EARLY grant ends it SERVED where the plan then serves its holder, or goes on with an EXTEND where that lacks time. -/
def Obligations.AcceptedClosesEndTheGrant : Prop :=
  (∀ (s : State) (j : JunctionNo) (o : Outstanding) (g : Grant), s.stall = none → s.linkSettled → s.present j = true →
    (s.junction j).outstanding = some o → o.ofGrant = true → ((∃ p, o.order = .release p) ∨ o.order = .cancel) →
    (s.junction j).grant = some g → g.ending ≠ some .preempted ∨ (s.junction j).stale = true → (s.junction j).pendingOrder = none →
    let x := s.junction j
    let run (pe : Clock) : Nat := if later s.clock pe then elapsed s.clock pe else 0
    let refund :=
      if o.order = .cancel ∧ g.extensionCharged = 0 then 0
      else match g.plannedEnd with
        | none => 0
        | some pe => g.extensionCharged - run pe
    let borrowed := g.cutCharged + g.extensionCharged - refund
    let total := min 12000 (x.sequenceBorrowed + borrowed)
    let R := max s.image.recoveryMinimum ((total * s.image.recoveryRatio + 3) / 4)
    let used := if x.windowNumber = g.chargeWindow then x.used - refund else x.used
    ∃ t, exec (.ack j.val o.tag true) s = .next t ∧ (t.junction j).used = used ∧
      (s.image.enables.grantNotice.get j = true →
        t.carries { number := s.noticeCounter,
                    body := .grantEnd j g.lastHolder.vehicle g.busPhase (g.ending.getD .withdrawn) borrowed }) ∧
      (0 < R ∨ x.stale = true →
        (t.junction j).grant = none ∧ (t.junction j).outstanding = none ∧ (t.junction j).sequenceBorrowed = total ∧
          (t.junction j).saved = none ∧ (t.junction j).gate = x.saved.getD x.gate ∧
          (∀ y ∈ (t.junction j).list, claimsGrant y = false) ∧
          (t.junction j).state = (if R = 0 then .idle else .recovery) ∧
          (0 < R → (t.junction j).recoveryDeadline = some (after s.clock R)))) ∧
  (∀ (s : State) (j : JunctionNo) (o : Outstanding) (g : Grant) (y : Entry) (cuts : List (PhaseNo × Nat)), s.stall = none → s.linkSettled →
    s.present j = true → (s.junction j).outstanding = some o → o.ofGrant = true → o.order = .cancel → (s.junction j).grant = some g →
    g.ending = some .preempted → g.extensionCharged = 0 → (s.junction j).pendingOrder = none → g.target = some y.vehicle →
    findEntry y.vehicle (s.junction j).list = some y → claimsGrant y = false →
    let x := s.junction j
    let after_ : State := s.setJunction j { x with outstanding := none, grant := none }
    admissible after_ j y = true → after_.judge j y = .early cuts →
    ∃ t, exec (.ack j.val o.tag true) s = .next t ∧ s.sendsOrder t j (.early y.busPhase cuts) ∧ (t.junction j).used = x.used ∧
      (t.junction j).saved = x.saved ∧ (t.junction j).sequenceBorrowed = min 12000 (x.sequenceBorrowed + g.cutCharged) ∧
      (s.image.enables.grantNotice.get j = true →
        t.carries { number := s.noticeCounter, body := .grantEnd j g.lastHolder.vehicle g.busPhase .preempted g.cutCharged }) ∧
      (∃ z ∈ (t.junction j).list, z.vehicle = y.vehicle ∧ z.state = .granted) ∧
      ∃ g', (t.junction j).grant = some g' ∧ g'.holder = some { vehicle := y.vehicle, way := y.way } ∧ g'.busPhase = y.busPhase ∧ g'.kind = .early ∧
        g'.cut = 0 ∧ g'.cutCharged = 0 ∧ g'.extensionCharged = 0 ∧ g'.closing = false ∧ g'.target = none ∧ g'.ending = none) ∧
  ∀ (s : State) (r : PhaseStatusFrame) (j : JunctionNo) (q : PhaseNo) (g : Grant), s.stall = none → s.linkSettled → r.junction = j.val →
    s.present j = true → r.phase = q.val → q.val < (s.image.junction j).phaseCount → (s.junction j).outstanding = none →
    (s.junction j).grant = some g → g.closing = false → g.ending = none →
    let c : Instr := .phaseStatus r
    (g.kind = .extend ∧ (q ≠ g.busPhase ∨ r.interval ≠ .green) ∨ g.kind = .early ∧ q = g.busPhase ∧ r.interval ≠ .green →
      ∃ t, exec c s = .next t ∧ s.endsGrant t j g .expired) ∧
      ∀ y : Entry, g.kind = .early → q = g.busPhase → r.interval = .green → g.holder = some { vehicle := y.vehicle, way := y.way } →
        findEntry y.vehicle (s.junction j).list = some y → y.state = .granted → y.busPhase = q → later y.eta s.clock = true →
        later (s.clock - BitVec.ofNat 32 r.elapsed) y.eta = false →
        let ge := after s.clock r.remaining
        let due := after y.eta s.image.clearMargin
        let amount := elapsed due ge
        (atOrAfter ge due = true →
          ∃ t, exec c s = .next t ∧ s.endsGrant t j g .served ∧
            (0 < s.image.recoveryMinimum → ∃ z ∈ (t.junction j).list, z.vehicle = y.vehicle ∧ z.verdict = some .servedByPlan)) ∧
          (atOrAfter ge due = false → amount ≤ (s.image.phase j q).maxExtension → amount ≤ s.budgetLeft j →
            (∀ z ∈ (s.junction j).list, z.busPhase = q) →
            ∃ t, exec c s = .next t ∧ s.sendsOrder t j (.extend q amount) ∧
              (t.junction j).grant = some { g with
                kind := .extend, windowStart := s.clock - BitVec.ofNat 32 r.elapsed, bound := after ge amount, plannedEnd := some ge,
                extensionInForce := 0 })

/-- R117, R118, R123, R133: a REFUSED, an ACK timeout and an unexpected ACK each freeze the junction: the flag of the fault is set and its notice offered, the grant
is dropped without refund or recovery, the gate restored, and every entry is HELD. The timeout keeps the tag and kind of the order as abandoned; a BAD_ACK leaves an
order outstanding, now of no grant, and a FROZEN junction's pending order (log 41). An ACK whose tag is in the discard set removes it there, and one of the abandoned tag makes that tag absent, neither
raising a fault: where it is the ACCEPTED of an EXTEND or EARLY a CANCEL goes out, or waits behind an outstanding order. The ACCEPTED of an outstanding order of no grant charges nothing and ends
no grant: an EXTEND or EARLY is followed by a CANCEL, and a RELEASE or CANCEL by a CANCEL that was pending. That the CANCEL formed for an abandoned EXTEND or EARLY,
or for one of no grant, belongs to no grant itself, whatever grant stands at its sending, is log 12. The FAULT notice precedes the GRANT end notice (log 45). Before its deadline, and with no order outstanding, the timeout does nothing (log 10). -/
def Obligations.FaultsFreezeTheJunction : Prop :=
  ∀ (s : State) (j : JunctionNo), s.stall = none → s.linkSettled →
    let x := s.junction j
    let frozen (t : State) (kind : FaultKind) (tag : Tag) : Prop :=
      (t.junction j).state = .frozen ∧ (t.junction j).faults = setFault kind x.faults ∧ (t.junction j).grant = none ∧
        (t.junction j).recoveryDeadline = none ∧ (t.junction j).saved = none ∧ (t.junction j).gate = x.saved.getD x.gate ∧
        (t.junction j).used = x.used ∧ (t.junction j).tagCounter = x.tagCounter ∧ t.signalFrame = s.signalFrame ∧
        t.signalWaiting = s.signalWaiting ∧ t.carries { number := s.noticeCounter, body := .fault j kind tag } ∧
        ((x.grant ≠ none ∨ ∀ y ∈ x.list, claimsGrant y = false) →
          ∀ y ∈ (t.junction j).list, y.state = .held ∧ y.hold ≠ none ∧ y.hold ≠ some .recovering) ∧
        (∀ g, x.grant = some g → s.image.enables.grantNotice.get j = true →
          t.carries { number := s.noticeCounter + 1,
                      body := .grantEnd j g.lastHolder.vehicle g.busPhase .fault (g.cutCharged + g.extensionCharged) })
    let cancelled (y : Junction) (ofGrant : Bool) (t : State) : Prop := t.junction j = { y with
        outstanding := some { order := .cancel, tag := x.tagCounter, deadline := after s.clock 20, ofGrant := ofGrant }
        tagCounter := x.tagCounter + 1 } ∧ s.sends t [{ junction := j, tag := x.tagCounter, order := .cancel }]
    (∀ o, x.outstanding = some o →
      (s.present j = true →
        ∃ t, exec (.ack j.val o.tag false) s = .next t ∧ frozen t .refused o.tag ∧ (t.junction j).outstanding = none ∧
          (t.junction j).pendingOrder = none ∧ (t.junction j).abandoned = x.abandoned) ∧
        (s.due (some o.deadline) = true →
          ∃ t, exec (.ackTimeout j) s = .next t ∧ frozen t .noAck o.tag ∧ (t.junction j).outstanding = none ∧
            (t.junction j).pendingOrder = none ∧ (t.junction j).abandoned = some (o.tag, orderKind o.order)) ∧
        (s.due (some o.deadline) = false → exec (.ackTimeout j) s = .next s)) ∧
      (∀ (tag : Tag) (accepted : Bool), s.present j = true → (∀ o, x.outstanding = some o → o.tag ≠ tag) → tag ∉ x.discard →
        (∀ a, x.abandoned = some a → a.1 ≠ tag) →
        ∃ t, exec (.ack j.val tag accepted) s = .next t ∧ frozen t .badAck tag ∧
          (t.junction j).outstanding = x.outstanding.map (fun o => { o with ofGrant := false }) ∧
          (t.junction j).pendingOrder = (if x.state = .frozen then x.pendingOrder else none)) ∧
      (∀ (tag : Tag) (accepted : Bool), s.present j = true → (∀ o, x.outstanding = some o → o.tag ≠ tag) →
        let set (y : Junction) : State := (s.hunt .signal).setJunction j y
        (tag ∈ x.discard → exec (.ack j.val tag accepted) s = .next (set { x with discard := x.discard.filter fun d => d ≠ tag })) ∧
          ∀ kind, tag ∉ x.discard → x.abandoned = some (tag, kind) →
            (accepted = false ∨ kind = .release ∨ kind = .cancel → exec (.ack j.val tag accepted) s = .next (set { x with abandoned := none })) ∧
              (accepted = true → kind = .extend ∨ kind = .early →
                (x.outstanding = none → ∃ t, exec (.ack j.val tag accepted) s = .next t ∧ cancelled { x with abandoned := none } false t) ∧
                  (x.outstanding ≠ none →
                    exec (.ack j.val tag accepted) s =
                      .next (set { x with abandoned := none, pendingOrder := some { order := .cancel, ofGrant := false } })))) ∧
      (∀ o, s.present j = true → x.outstanding = some o → o.ofGrant = false →
        (orderKind o.order = .extend ∨ orderKind o.order = .early → ∃ t, exec (.ack j.val o.tag true) s = .next t ∧ cancelled x false t) ∧
          (orderKind o.order = .release ∨ orderKind o.order = .cancel →
            (x.pendingOrder = none → exec (.ack j.val o.tag true) s = .next ((s.hunt .signal).setJunction j { x with outstanding := none })) ∧
              ∀ ofGrant, x.pendingOrder = some { order := .cancel, ofGrant := ofGrant } →
                ∃ t, exec (.ack j.val o.tag true) s = .next t ∧ cancelled { x with pendingOrder := none } ofGrant t)) ∧
      (x.outstanding = none → exec (.ackTimeout j) s = .next s) ∧
      ∀ (n : Nat) (tag : Tag) (accepted : Bool), (∀ k : JunctionNo, n = k.val → s.present k = false) →
        exec (.ack n tag accepted) s = .next (s.hunt .signal)

/-- R102, R132, R142: at its recovery deadline a junction leaves RECOVERY for IDLE, and evaluates; at its window deadline the used amount returns to 0, the window number
rises by 1, the next deadline is W away, and an IDLE junction evaluates. Before the deadlines nothing happens (log 10). With a stale mirror there is no evaluation, and the effect is
stated whole; with a fresh one it is stated where the one entry of the list is judged EXTEND. -/
def Obligations.RecoveryAndWindowsEnd : Prop :=
  ∀ (s : State) (j : JunctionNo), s.stall = none → s.linkSettled →
    let x := s.junction j
    (∀ d, x.recoveryDeadline = some d → s.due (some d) = true → x.state = .recovery →
      (∃ t, exec (.recoveryDeadline j) s = .next t ∧ (t.junction j).recoveryDeadline = none ∧
        ((t.junction j).state = .idle ∨ (t.junction j).state = .awaitRuling ∨ (t.junction j).state = .ordering)) ∧
        (∀ (m : Mirror) (y : Entry),
          let s' := s.setJunction j { x.restored with state := .idle, recoveryDeadline := none }
          s'.extendable j m y → ∃ t, exec (.recoveryDeadline j) s = .next t ∧ s'.beginsExtension t j m y) ∧
        (x.stale = true →
          exec (.recoveryDeadline j) s =
            .next ((s.setJunction j { x.restored with state := .idle, recoveryDeadline := none }).reviewed j))) ∧
      (s.due x.recoveryDeadline = false ∨ x.state ≠ .recovery → exec (.recoveryDeadline j) s = .next s) ∧
      (s.due (some x.windowDeadline) = true →
        (∃ t, exec (.windowDeadline j) s = .next t ∧ (t.junction j).used = 0 ∧ (t.junction j).windowNumber = x.windowNumber + 1 ∧
          (t.junction j).windowDeadline = after s.clock s.image.budgetWindow) ∧
          (∀ (m : Mirror) (y : Entry),
            let s' := s.setJunction j { x with
              used := 0, windowNumber := x.windowNumber + 1, windowDeadline := after s.clock s.image.budgetWindow }
            s'.extendable j m y → ∃ t, exec (.windowDeadline j) s = .next t ∧ s'.beginsExtension t j m y) ∧
          (x.stale = true →
            exec (.windowDeadline j) s =
              .next (s.setJunction j { x with
                used := 0, windowNumber := x.windowNumber + 1, windowDeadline := after s.clock s.image.budgetWindow }))) ∧
      (s.due (some x.windowDeadline) = false → exec (.windowDeadline j) s = .next s)

/-- R143, R144: no command but an ACK raises the used amount of a junction, and an ACK does not bring it above the cap of the level in force. A command runs itself, and the frames
found in one that it abandons (R186). -/
def Obligations.ChargesStayUnderTheCap : Prop :=
  ∀ (c : Instr) (s t : State) (j : JunctionNo), exec c s = .next t →
    (∀ n tag accepted, c = .ack n tag accepted → (t.junction j).used ≤ max (s.junction j).used (s.levelEntry j).cap) ∧
      ((∀ n tag accepted, ¬ Runs c (.ack n tag accepted)) → (t.junction j).used ≤ (s.junction j).used)

/-- R97, R98, R101, R102: SET GATE writes the saved copy where one is present, answered OK-DEFERRED, and otherwise the live gate, at which an IDLE junction evaluates: stated where
the one entry of the list is judged EXTEND. A gate that admits no tier, UNIFORM with M = 1 or SPLIT with M = 1 and U = 1, holds every entry that claims no grant. A number or a mask out of range is RANGE. That the reply shows the gate after the evaluation is the model's
choice (log 18). -/
def Obligations.SetGateWritesOrDefers : Prop :=
  ∀ (s : State) (number : Byte) (mode : GateMode) (m u : Bool) (tu : Nat), s.marker = false →
    let bit (b : Bool) : Nat := if b then 1 else 0
    let g : Gate := { mode := mode, m := m, u := u, tu := min 3 (max 2 tu) }
    let c (n : Nat) : Instr :=
      .setGate { number := number, body := some { junction := n, mode := gateModeCode mode, m := bit m, u := bit u, tu := tu } }
    (∀ j : JunctionNo,
      let x := s.junction j
      (x.saved ≠ none →
        exec (c j.val) s =
          .next (((s.hunt .supervisor).setJunction j { x with saved := some g }).replied 0x0A number .okDeferred
            (.gate x.gate (some g)))) ∧
        (x.saved = none →
          (∃ v : State, exec (c j.val) s = .next (v.replied 0x0A number .ok (.gate (v.junction j).gate (v.junction j).saved)) ∧
            ((v.junction j).gate = g ∧ (v.junction j).saved = none ∨ (v.junction j).saved = some g)) ∧
            (x.stale = true →
              exec (c j.val) s =
                .next ((((s.hunt .supervisor).setJunction j { x with gate := g }).reviewed j).replied 0x0A number .ok (.gate g none))) ∧
            (∀ (e : Mirror) (y : Entry),
              let s' := (s.hunt .supervisor).setJunction j { x with gate := g }
              s'.extendable j e y →
              ∃ v : State, exec (c j.val) s = .next (v.replied 0x0A number .ok (.gate (v.junction j).gate (v.junction j).saved)) ∧
                s'.beginsExtension v j e y) ∧
            (m = true → mode = .uniform ∨ u = true →
              x.stale = true ∨ x.state = .idle ∧ x.carry = none ∨ x.state = .awaitRuling ∨ x.state = .recovery ∨ x.state = .frozen →
              exec (c j.val) s =
                  .next ((((s.hunt .supervisor).setJunction j { x with gate := g }).reviewed j).replied 0x0A number .ok (.gate g none)) ∧
                ∀ y ∈ ((((s.hunt .supervisor).setJunction j { x with gate := g }).reviewed j).junction j).list, claimsGrant y = false →
                  y.state = .held ∧ y.hold = some .gate))) ∧
      (∀ n, 4 ≤ n → exec (c n) s = .next ((s.hunt .supervisor).replied 0x0A number .range .empty)) ∧
      ∀ x : GateSetting, 2 ≤ x.mode ∨ 2 ≤ x.m ∨ 2 ≤ x.u →
        exec (.setGate { number := number, body := some x }) s = .next ((s.hunt .supervisor).replied 0x0A number .range .empty)

/-- R102, R133: CLEAR FAULT clears the named flags and answers with those that remain; a FROZEN junction on which none remains enters IDLE at that event, and evaluates: stated
where the one entry of the list is judged EXTEND. A
junction beyond 3, or a kind that is none of the three, is RANGE (log 23). That the list of kinds may be empty and may repeat a kind is the model's choice (log 59). -/
def Obligations.ClearFaultThaws : Prop :=
  ∀ (s : State) (number : Byte) (l : List FaultKind), s.marker = false →
    let code : FaultKind → Nat
      | .refused => 0
      | .noAck => 1
      | .badAck => 2
    let c (n : Nat) (ks : List Nat) : Instr := .clearFault { number := number, body := some { junction := n, kinds := ks } }
    (∀ j : JunctionNo,
      let x := s.junction j
      let left : FaultFlags :=
        { refused := x.faults.refused && !l.contains .refused, noAck := x.faults.noAck && !l.contains .noAck,
          badAck := x.faults.badAck && !l.contains .badAck }
      (left ≠ noFaults ∨ x.state ≠ .frozen →
        exec (c j.val (l.map code)) s =
          .next (((s.hunt .supervisor).setJunction j { x with faults := left }).replied 0x0D number .ok (.faults left))) ∧
        (left = noFaults → x.state = .frozen →
          (∃ v : State, exec (c j.val (l.map code)) s = .next (v.replied 0x0D number .ok (.faults noFaults)) ∧
            (v.junction j).state ≠ .frozen ∧ (v.junction j).faults = noFaults) ∧
            (∀ (m : Mirror) (y : Entry),
              let s' := (s.hunt .supervisor).setJunction j { x.restored with faults := noFaults, state := .idle }
              s'.extendable j m y →
              ∃ v : State, exec (c j.val (l.map code)) s = .next (v.replied 0x0D number .ok (.faults noFaults)) ∧ s'.beginsExtension v j m y) ∧
            (x.stale = true →
              exec (c j.val (l.map code)) s =
                .next ((((s.hunt .supervisor).setJunction j { x.restored with faults := noFaults, state := .idle }).reviewed j).replied 0x0D
                  number .ok (.faults noFaults))))) ∧
      (∀ n ks, 4 ≤ n → exec (c n ks) s = .next ((s.hunt .supervisor).replied 0x0D number .range .empty)) ∧
      ∀ (j : JunctionNo) (ks : List Nat) (k : Nat), k ∈ ks → 3 ≤ k →
        exec (c j.val ks) s = .next ((s.hunt .supervisor).replied 0x0D number .range .empty)

/-- R134, R175: CLEAR JUNCTION sends a CANCEL where a grant runs, resets the junction, starts its next window, unlists the tracks listed there and withdraws its conflict
referral; it is answered OK with the state IDLE, and touches no other junction. A number beyond 3 is RANGE. The discard set it forms replaces the old one (log 36). -/
def Obligations.JunctionsAreCleared : Prop :=
  ∀ (s : State) (number : Byte), s.marker = false →
    (∀ j : JunctionNo, ∃ v : State,
      exec (.clearJunction { number := number, body := some j.val }) s = .next (v.replied 0x11 number .ok (.junctionState .idle)) ∧
        (s.junction j).resetTo (s.image.gates.get j) (v.junction j) ∧ (v.junction j).used = 0 ∧
        (v.junction j).windowNumber = (s.junction j).windowNumber + 1 ∧
        (v.junction j).windowDeadline = after s.clock s.image.budgetWindow ∧ s.sends v (s.resetCancels [j]) ∧
        (∀ k : JunctionNo, k ≠ j → v.junction k = s.junction k) ∧
        (∀ p : Place, v.track p = (s.track p).map fun t => if t.listed = some j then { t with listed := none, pinned := false } else t) ∧
        (∀ k : SetNo, (v.sets.get k).age = (s.sets.get k).age) ∧
        v.referral = (s.referral.filter fun f => !(f.cls == .conflict && f.place == .junction j)) ∧
        v.steady = { s.steady with receivers := s.receivers.put .supervisor none } ∧ v.reliability = s.reliability ∧
        v.noticeQueue = s.noticeQueue ∧ v.noticeCounter = s.noticeCounter ∧ v.overflow = s.overflow ∧ v.stall = s.stall ∧
        v.supervisorFrame = s.supervisorFrame ∧ v.busyList = s.busyList ∧ v.corridorFrame = s.corridorFrame ∧
        v.corridorWaiting = s.corridorWaiting ∧ v.anomalyFlags = s.anomalyFlags ∧ v.lastCause = s.lastCause) ∧
      ∀ n, 4 ≤ n → exec (.clearJunction { number := number, body := some n }) s =
        .next ((s.hunt .supervisor).replied 0x11 number .range .empty)

/-! ### Load and reliability (Chapters 7 and 9) -/

/-- R135–R139: with an averaging deadline a sample is summed, and without one it is the average at once and is compared; at the deadline every junction's average is
formed, or held, and compared, and the next deadline formed. The comparison rises to the highest level whose threshold the average reaches, or falls step by step, each step tested
against the threshold, less the hysteresis, of the level it starts from, and NORMAL left by none; a rise sets its flag, and its notice is offered where enabled. Before the deadline
nothing happens (log 10). -/
def Obligations.LoadsFollowTheirSamples : Prop :=
  (∀ (s : State) (j : JunctionNo) (percent : Nat), s.stall = none → s.linkSettled → s.present j = true →
    let x := s.load j
    (∀ d, s.averagingDeadline = some d →
      exec (.occupancy j.val percent) s =
        .next { s.hunt .signal with
          loads := s.loads.set j { x with sum := min 65535 (x.sum + min percent 100), count := min 65535 (x.count + 1) } }) ∧
      (s.averagingDeadline = none →
        let y := comparedLoad s.image { x with average := min percent 100 }
        ∃ t, exec (.occupancy j.val percent) s = .next t ∧ t.loads = s.loads.set j y ∧
          (levelIndex x.level < levelIndex y.level → s.image.levelNotice y.level = true →
            t.carries { number := s.noticeCounter, body := .level j y.level x.level (min percent 100) s.clock }))) ∧
    (∀ (s : State) (n percent : Nat), (∀ k : JunctionNo, n = k.val → s.present k = false) →
      exec (.occupancy n percent) s = .next (s.hunt .signal)) ∧
    (∀ s : State,
      (s.due s.averagingDeadline = true → s.stall = none → s.linkSettled →
        ∃ t, exec .averagingDeadline s = .next t ∧ (∀ j : JunctionNo, t.load j = comparedLoad s.image (closedLoad (s.load j))) ∧
          (∀ j : JunctionNo, levelIndex (s.load j).level < levelIndex (t.load j).level → s.image.levelNotice (t.load j).level = true →
            ∃ n : NoticeNumber, t.carries { number := n, body := .level j (t.load j).level (s.load j).level (t.load j).average s.clock }) ∧
          t.averagingDeadline =
            (if 0 < s.image.averagingInterval then some (after s.clock s.image.averagingInterval) else none)) ∧
        (s.due s.averagingDeadline = false → exec .averagingDeadline s = .next s)) ∧
    ∀ (img : Image) (l : Level) (average : Nat),
      (∀ x, risenLevel img l average = some x →
        levelIndex l < levelIndex x ∧ img.threshold x ≤ average ∧
          ∀ y, levelIndex x < levelIndex y → ¬ img.threshold y ≤ average) ∧
        (risenLevel img l average = none → ∀ y, levelIndex l < levelIndex y → ¬ img.threshold y ≤ average) ∧
        (let below (x : Level) : Prop := (average : Int) < (img.threshold x : Int) - img.hysteresis
         fallenLevel img .normal average = .normal ∧ (∀ x, x ≠ .normal → ¬ below x → fallenLevel img x average = x) ∧
           (below .lo → fallenLevel img .lo average = .normal) ∧
           (below .mid → fallenLevel img .mid average = fallenLevel img .lo average) ∧
           (below .hi → fallenLevel img .hi average = fallenLevel img .mid average))

/-- R111, R166: a detector call of a present junction is kept as its last call. Where it tells of presence on a tagged approach of the junction it confirms the entry of
that approach with the earliest ETA, the first of the list among equal ones, that is unconfirmed and was listed before the call, and no other; otherwise it does nothing more. -/
def Obligations.CallsConfirmOneEntry : Prop :=
  ∀ (s : State) (j : JunctionNo) (approach presence : Nat), s.stall = none → s.linkSettled →
    let record : DetectorRecord := { approach := approach, presence := presence, receipt := s.clock }
    let c : Instr := .detectorCall j.val approach presence
    (s.present j = false → exec c s = .next (s.hunt .signal)) ∧
      (s.present j = true →
        (presence ≠ 1 ∨ 16 ≤ approach ∨
            (∃ a : ApproachNo, approach = a.val ∧
              ((s.reliability.get a).tagged = false ∨ (s.image.approach a).junction ≠ some j ∨
                ∀ y ∈ (s.junction j).list, y.approach = a → y.confirmed = true ∨ earlier y.firstListed s.clock = false)) →
          exec c s = .next ((s.hunt .signal).setJunction j { s.junction j with lastCall := some record })) ∧
        ∀ (a : ApproachNo) (l₁ l₂ : List Entry) (x : Entry), presence = 1 → approach = a.val → (s.reliability.get a).tagged = true →
          (s.image.approach a).junction = some j → (s.junction j).list = l₁ ++ x :: l₂ →
          let open_ (y : Entry) : Prop := y.approach = a ∧ y.confirmed = false ∧ earlier y.firstListed s.clock = true
          open_ x → (∀ y ∈ l₁, open_ y → later y.eta x.eta = true) → (∀ y ∈ l₂, open_ y → earlier y.eta x.eta = false) →
          (∀ y ∈ l₁ ++ l₂, y.vehicle ≠ x.vehicle) →
          (∃ t, exec c s = .next t ∧ (t.junction j).lastCall = some record ∧
            (t.junction j).list.map (fun y => (y.vehicle, y.confirmed)) =
              l₁.map (fun y => (y.vehicle, y.confirmed)) ++ (x.vehicle, true) :: l₂.map (fun y => (y.vehicle, y.confirmed))) ∧
            (claimsGrant x = true →
              exec c s =
                .next ((s.hunt .signal).setJunction j { s.junction j with
                  lastCall := some record, list := l₁ ++ { x with confirmed := true } :: l₂ })))

/-- R160, R162, R163: a GRANTED request whose track is lost (stated of its stale expiry) counts a phantom against its approach; at the threshold the OVER flag is set, the fault record
taken, both counts return to 0 and a THRESHOLD notice is offered. A request in another state counts none. At the leak deadline every approach leaks: a phantom count above 0 falls by 1 where the secondary count has reached its limit, which then returns to 0, and the
secondary count rises otherwise; at a phantom count of 0 it is held at 0. The next deadline is the leak interval away, and no write to that interval moves it. -/
def Obligations.PhantomsLeak : Prop :=
  (∀ s : State,
    (s.due (some s.leakDeadline) = true →
      ∃ t, exec .leakDeadline s = .next t ∧ t = { s with reliability := t.reliability, leakDeadline := after s.clock s.image.leakInterval } ∧
        ∀ a : ApproachNo,
          let x := s.reliability.get a
          let limit := (s.image.approach a).secondaryLimit
          t.reliability.get a =
            if 0 < x.phantoms then
              if limit ≤ x.secondary then { x with phantoms := x.phantoms - 1, secondary := 0 }
              else { x with secondary := x.secondary + 1 }
            else { x with secondary := 0 }) ∧
      (s.due (some s.leakDeadline) = false → exec .leakDeadline s = .next s)) ∧
    (∀ (s : State) (k : SetNo) (w : Way) (t : Track) (d : Clock) (j : JunctionNo) (x : Entry), s.stall = none → s.linkSettled →
      s.track { set := k, way := w } = some t → t.staleDeadline = some d → s.due (some d) = true → t.journey = none → t.listed = some j →
      findEntry t.vehicle (s.junction j).list = some x → x.way = w →
      let old := s.reliability.get x.approach
      let threshold := s.image.phantomThreshold
      let c : Instr := .staleDeadline k w
      (x.state ≠ .granted → ∃ v, exec c s = .next v ∧ v.reliability = s.reliability) ∧
        (x.state = .granted → old.phantoms + 1 < threshold →
          ∃ v, exec c s = .next v ∧ v.reliability = s.reliability.set x.approach { old with phantoms := old.phantoms + 1 }) ∧
        (x.state = .granted → threshold ≤ old.phantoms + 1 →
          ∃ v, exec c s = .next v ∧
            v.reliability = s.reliability.set x.approach { old with
              phantoms := 0, secondary := 0, overFlag := true, fault := some { vehicle := t.vehicle, junction := j, time := s.clock } } ∧
            v.carries { number := s.noticeCounter, body := .threshold x.approach j t.vehicle s.clock threshold })) ∧
    ∀ (c : Instr) (s t : State), c ≠ .leakDeadline → c ≠ .coldStart → exec c s = .next t → t.leakDeadline = s.leakDeadline

/-- R97, R165: TAG and UNTAG set the tag of an approach and are answered OK with it; one that changes nothing does nothing more. A change has the entries of the
approach's junction reviewed, and an IDLE junction evaluates: stated where the one entry of the list is judged EXTEND. Under a stale mirror, at which no junction evaluates, this is stated
whole, and an unconfirmed entry of a tagged approach is HELD. A number beyond 15 is RANGE. -/
def Obligations.TagsAreSetAndHold : Prop :=
  ∀ (s : State) (number : Byte) (tagged : Bool), s.marker = false →
    let r (n : Nat) : Request Nat := { number := number, body := some n }
    let c (n : Nat) : Instr := if tagged then .tag (r n) else .untag (r n)
    let kind : Byte := if tagged then 0x0F else 0x10
    (∀ n, 16 ≤ n → exec (c n) s = .next ((s.hunt .supervisor).replied kind number .range .empty)) ∧
      ∀ a : ApproachNo,
        let x := s.reliability.get a
        let after : State := { s.hunt .supervisor with reliability := s.reliability.set a { x with tagged := tagged } }
        (∃ v : State, exec (c a.val) s = .next (v.replied kind number .ok (.tag tagged)) ∧ v.reliability = after.reliability) ∧
          (x.tagged = tagged ∨ (s.image.approach a).junction = none →
            exec (c a.val) s = .next (after.replied kind number .ok (.tag tagged))) ∧
          (∀ (j : JunctionNo) (m : Mirror) (y : Entry), x.tagged ≠ tagged → (s.image.approach a).junction = some j → after.extendable j m y →
            ∃ v : State, exec (c a.val) s = .next (v.replied kind number .ok (.tag tagged)) ∧ after.beginsExtension v j m y) ∧
          ∀ j : JunctionNo, x.tagged ≠ tagged → (s.image.approach a).junction = some j → (s.junction j).stale = true →
            exec (c a.val) s = .next ((after.reviewed j).replied kind number .ok (.tag tagged)) ∧
              (tagged = true → ∀ y ∈ ((after.reviewed j).junction j).list, y.approach = a → y.confirmed = false → claimsGrant y = false →
                y.state = .held ∧ (y.hold = some .gate ∨ y.hold = some .floor ∨ y.hold = some .unconfirmed))

/-- R31, R139, R148, R164, R173: CLEAR FLAGS clears every flag that it names and no other, and is answered OK with every flag of the five kinds as it then stands. That a level is named
by its code and the overflow flag by a switch at 1, and that a number that names no flag clears nothing, is the model's choice (log 17), as is that its lists may be of any count, with repeats (log 59). -/
def Obligations.ClearFlagsClearsTheNamed : Prop :=
  ∀ (s : State) (number : Byte) (x : FlagSets), s.marker = false →
    ∃ v : State, exec (.clearFlags { number := number, body := some x }) s = .next (v.replied 0x0C number .ok (.flags v.flagView)) ∧
      v = { s.hunt .supervisor with
            slots := v.slots, loads := v.loads, anomalyFlags := v.anomalyFlags, reliability := v.reliability, overflow := v.overflow } ∧
      (∀ k : SlotNo, v.slots.get k = { s.slots.get k with overrunFlag := (s.slots.get k).overrunFlag && !x.slots.contains k.val }) ∧
      (∀ j : JunctionNo,
        let f := (s.load j).rises
        v.load j = { s.load j with rises :=
          { lo := f.lo && !x.rises.contains (j.val, 1), mid := f.mid && !x.rises.contains (j.val, 2),
            hi := f.hi && !x.rises.contains (j.val, 3) } }) ∧
      (∀ c : AnomalyClass, v.anomalyFlags.get (anomalyIndex c) =
        (s.anomalyFlags.get (anomalyIndex c) && !x.classes.contains (anomalyIndex c).val)) ∧
      (∀ a : ApproachNo, v.reliability.get a =
        { s.reliability.get a with overFlag := (s.reliability.get a).overFlag && !x.approaches.contains a.val }) ∧
      v.overflow = (s.overflow && x.overflow != 1) ∧
      v.flagView.overflow = v.overflow ∧ v.flagView.anomalies = v.anomalyFlags ∧
      (∀ k, v.flagView.overruns.get k = (v.slots.get k).overrunFlag) ∧ (∀ j, v.flagView.rises.get j = (v.load j).rises) ∧
      ∀ a, v.flagView.overs.get a = (v.reliability.get a).overFlag

/-! ### Resets and the store (Chapters 10 and 11) -/

/-- R27, R42, R90, R98, R109, R132–R135, R141, R148, R161, R178, R181, R184: at a cold start the working image is the stored one where it passes its check, and the built-in
defaults otherwise, a commit cut short leaving a store that fails its check and holds part of the snapshot, each entry the snapshot's or that of the image stored before (log 6); every block takes its cold-start values from that image, and the START notice goes out as number 0, in
transmission at the end of the event (log 3). -/
def Obligations.ColdStartLoadsTheImage : Prop :=
  ∀ s : State,
    let started (img : Image) (stored : StoredImage) (passed : Bool) : Prop :=
      let condition : StoreCondition := if passed then .sound else .damaged
      ∃ t, exec .coldStart s = .next t ∧ t.image = img ∧ t.stored = stored ∧ t.startPassed = passed ∧ t.condition = condition ∧
        t.clock = 0 ∧ t.lock = false ∧ t.commit = none ∧ t.lastCommit = none ∧ t.marker = false ∧ t.replySlot = none ∧ t.busyList = [] ∧
        t.supervisorFrame = some (.notice { number := 0, body := .start .cold passed condition false none }) ∧ t.noticeQueue = [] ∧
        t.noticeCounter = 1 ∧ t.overflow = false ∧ t.receivers = hunting ∧ t.signalFrame = none ∧ t.signalWaiting = [] ∧
        t.corridorFrame = none ∧ t.corridorWaiting = [] ∧ t.hold = none ∧ t.corridorQueue = [] ∧ t.stall = none ∧ t.waiting = [] ∧
        (∀ k : SlotNo, t.slots.get k = coldSlot) ∧ (∀ k : SetNo, t.sets.get k = emptySet) ∧
        (∀ j : JunctionNo,
          t.junction j = coldJunction (img.gates.get j) (BitVec.ofNat 32 img.budgetWindow) ∧ t.load j = restLoad) ∧
        (∀ c, t.anomalyFlags.get c = false) ∧ t.lastCause = none ∧ t.referral = none ∧
        (∀ a : ApproachNo, t.reliability.get a = restReliability) ∧ t.leakDeadline = BitVec.ofNat 32 img.leakInterval ∧
        t.averagingDeadline = (if 0 < img.averagingInterval then some (BitVec.ofNat 32 img.averagingInterval) else none)
    (s.commit = none → s.stored.passes = true → started s.stored.tables s.stored true) ∧
      (s.commit = none → s.stored.passes = false → started builtInDefaults s.stored false) ∧
      ∀ snapshot, s.commit = some snapshot →
        ∃ x : StoredImage, x.passes = false ∧ x.tables.mixes snapshot s.stored.tables ∧ started builtInDefaults x false

/-- R4, R27, R42, R134, R135, R141, R148, R176: RESTART is answered OK, keeps the clock, the working image, the store, the lock, the tags and counters, the link and the
frames in transmission, and resets the rest; a junction with a grant sends CANCEL, and the START notice of cause WARM is alone in the queue. What the restart leaves,
and the new discard set, are read from the rules by inference (logs 36, 37). -/
def Obligations.RestartKeepsTheImage : Prop :=
  ∀ (s : State) (number : Byte), s.marker = false →
    ∃ v : State, exec (.restart { number := number, body := some () }) s = .next (v.replied 0x12 number .ok .empty) ∧
      v.clock = s.clock ∧ v.image = s.image ∧ v.stored = s.stored ∧ v.condition = s.condition ∧ v.startPassed = s.startPassed ∧
      v.lock = s.lock ∧ v.commit = s.commit ∧ v.lastCommit = s.lastCommit ∧ v.reliability = s.reliability ∧
      v.leakDeadline = s.leakDeadline ∧ v.supervisorFrame = s.supervisorFrame ∧ v.busyList = s.busyList ∧
      v.corridorFrame = s.corridorFrame ∧ v.receivers = s.receivers.put .supervisor none ∧
      v.noticeQueue = [{ number := s.noticeCounter, body := .start .warm s.startPassed s.condition s.lock s.lastCommit }] ∧
      v.noticeCounter = s.noticeCounter + 1 ∧ v.overflow = false ∧ v.stall = none ∧ v.waiting = [] ∧ v.hold = none ∧
      v.corridorQueue = [] ∧ v.corridorWaiting = [] ∧ v.referral = none ∧ v.lastCause = none ∧
      (∀ c, v.anomalyFlags.get c = false) ∧ (∀ k : SetNo, v.sets.get k = emptySet) ∧
      (∀ k : SlotNo, v.slots.get k =
        { s.slots.get k with
          code := if (s.slots.get k).code = .inactive then .inactive else .empty, report := none, overrunFlag := false }) ∧
      (∀ j : JunctionNo, (s.junction j).resetTo (s.image.gates.get j) (v.junction j) ∧ (v.junction j).used = 0 ∧
        (v.junction j).windowNumber = 0 ∧ (v.junction j).windowDeadline = after s.clock s.image.budgetWindow ∧ v.load j = restLoad) ∧
      s.sends v (s.resetCancels [0, 1, 2, 3]) ∧
      v.averagingDeadline = (if 0 < s.image.averagingInterval then some (after s.clock s.image.averagingInterval) else none)

/-- R182: LOCK CONFIG sets the lock and is answered OK with it; a cold start alone clears it, and no command that runs no LOCK CONFIG (one may be found in a frame abandoned, R186) sets it. Under the lock a PHASE write that would change more than the split is LOCKED,
one that changes the split alone is accepted, and a COMMIT CONFIG is LOCKED; with the lock clear every field of a PHASE entry is written. No other request is LOCKED, and a
running commit goes on. -/
def Obligations.LockBarsPhasesAndCommits : Prop :=
  (∀ (s : State) (number : Byte), s.marker = false →
    exec (.lockConfig { number := number, body := some () }) s =
      .next (({ s.hunt .supervisor with lock := true } : State).replied 0x14 number .ok (.lock true))) ∧
    (∀ s t : State, exec .coldStart s = .next t → t.lock = false) ∧
    (∀ (c : Instr) (s t : State), c ≠ .coldStart → (∀ r, ¬ Runs c (.lockConfig r)) → exec c s = .next t → t.lock = s.lock) ∧
    (∀ (s : State) (number : Byte) (k : Fin 32) (split minGreen clearance maxExtension : Nat) (guarded : Bool), s.marker = false →
      let e := clampPhase split minGreen clearance maxExtension guarded
      let old := s.image.phases.get k
      let splitAlone := e.minGreen = old.minGreen ∧ e.clearance = old.clearance ∧ e.maxExtension = old.maxExtension ∧ e.guarded = old.guarded
      let w : WrittenEntry := .phase split minGreen clearance maxExtension (if guarded then 1 else 0)
      let c : Instr := .writeConfig { number := number, body := some { index := k.val, values := w } }
      (s.lock = true → ¬ splitAlone → exec c s = .next ((s.hunt .supervisor).replied 0x09 number .locked .empty)) ∧
        (s.lock = false ∨ splitAlone → s.image.consistent = true →
          exec c s = .next (({ s.hunt .supervisor with image := { s.image with phases := s.image.phases.set k e } } : State).replied 0x09
            number .ok (.entry (.phase e))))) ∧
    (∀ (s : State) (number : Byte), s.marker = false → s.lock = true →
      exec (.commitConfig { number := number, body := some () }) s =
        .next ((s.hunt .supervisor).replied 0x13 number .locked .empty)) ∧
    ∀ (c : Instr) (kind number : Byte) (s : State), requestOf c = some (kind, number, true) → s.marker = false →
      (∀ r, c ≠ .commitConfig r) →
      (∀ n i split minGreen clearance maxExtension guarded,
        c ≠ .writeConfig { number := n, body := some { index := i, values := .phase split minGreen clearance maxExtension guarded } }) →
      ∃ (v : State) (result : Result) (b : ReplyBody), result ≠ .locked ∧ exec c s = .next (v.replied kind number result b)

/-- R183: COMMIT CONFIG is LOCKED under the lock, BUSY while a commit runs, and otherwise takes a snapshot of the working image as it stands, the store condition becoming
WRITING. While the commit runs, writes change the working image and not the snapshot, and READ CONFIG shows the working image. -/
def Obligations.CommitTakesASnapshot : Prop :=
  (∀ (s : State) (number : Byte), s.marker = false →
    let c : Instr := .commitConfig { number := number, body := some () }
    (s.lock = true → exec c s = .next ((s.hunt .supervisor).replied 0x13 number .locked .empty)) ∧
      (s.lock = false → s.commit ≠ none → exec c s = .next ((s.hunt .supervisor).replied 0x13 number .busy .empty)) ∧
      (s.lock = false → s.commit = none →
        exec c s =
          .next (({ s.hunt .supervisor with commit := some s.image, condition := .writing } : State).replied 0x13 number .ok .empty))) ∧
    (∀ (s t : State) (c : Instr), ((∃ r, c = .writeConfig r) ∨ ∃ r, c = .setEnables r) → exec c s = .next t → t.commit = s.commit) ∧
    ∀ (s : State) (number : Byte) (n : TableName) (i : Nat) (e : TableEntry), s.marker = false → s.image.read n i = some e →
      exec (.readConfig { number := number, body := some { table := n, index := i } }) s =
        .next ((s.hunt .supervisor).replied 0x08 number .ok (.entry e))

/-- R180, R184: a store write that ends OK stores the snapshot under the word computed over it; one that fails leaves a stored image that fails its check (its content is
free, log 6), the working image as it stands. Either ends the commit and offers its COMMIT_DONE notice. With no commit running nothing happens (log 11). -/
def Obligations.StoreWritesEndTheCommit : Prop :=
  ∀ s : State,
    (∀ snapshot : Image, s.commit = some snapshot → s.stall = none → s.linkSettled →
      exec (.storeWriteComplete true) s =
          .next (({ s with
            stored := { tables := snapshot, word := checkWord snapshot }, condition := .sound, commit := none,
            lastCommit := some true } : State).offered (.commitDone true)) ∧
        ({ tables := snapshot, word := checkWord snapshot } : StoredImage).passes = true ∧
        ∃ x : StoredImage, x.passes = false ∧
          exec (.storeWriteComplete false) s =
            .next (({ s with
              stored := x, condition := .damaged, commit := none, lastCommit := some false, freeIndex := s.freeIndex + 1 } : State).offered
              (.commitDone false))) ∧
      ∀ ok : Bool, s.commit = none → exec (.storeWriteComplete ok) s = .next s
end

