-- ==== Sys2Proof/Laws/Lists.lean ====
section
/-!
SUPPORT. Laws/Lists.lean: what placing an entry in a Request List, and the end of a referral, do to the list (R89, R93, R106).
-/
namespace Sys2Proof.Machine

/-- Placing an entry adds it, and drops nothing. -/
theorem insertEntry_perm (kept : Entry → Bool) (x : Entry) (l : List Entry) : (insertEntry kept x l).Perm (x :: l) := by
  induction l with
  | nil => exact .refl _
  | cons y ys ih =>
    unfold insertEntry
    split
    · exact .refl _
    · exact (ih.cons y).trans (.swap x y ys)

/-- Placing an entry leaves the order of the entries that a predicate without it picks. -/
theorem insertEntry_filter (kept p : Entry → Bool) (x : Entry) (l : List Entry) (h : p x = false) :
    (insertEntry kept x l).filter p = l.filter p := by
  induction l with
  | nil => simp [insertEntry, h]
  | cons y ys ih =>
    unfold insertEntry
    split
    · simp [h]
    · simp only [List.filter_cons, ih]

/-- The end of a referral reorders a list, and adds and drops nothing. -/
theorem Referral.reorder_perm (r : Referral) (j : JunctionNo) (l : List Entry) : (r.reorder j l).Perm l := by
  unfold Referral.reorder
  split
  · have place (a b : List Entry) : (a.foldl (fun l x => insertEntry (fun _ => false) x l) b).Perm (a ++ b) := by
      induction a generalizing b with
      | nil => exact .refl _
      | cons x xs ih => exact (ih _).trans ((insertEntry_perm _ x b).append_left xs |>.trans List.perm_middle)
    exact (place _ _).trans (List.filter_append_perm _ l)
  · exact .refl _

@[simp] theorem closeReferral_referral (e : Event) : (closeReferral e).referral = none := by
  unfold closeReferral
  split
  · assumption
  · split <;> rfl

/-- With no referral open no entry keeps its place. -/
theorem keepsPlace_none (s : State) (j : JunctionNo) (vehicle : Nat) (h : s.referral = none) : s.keepsPlace j vehicle = false := by
  simp [State.keepsPlace, h]

end Sys2Proof.Machine
end

