-- ==== Sys2Proof/Laws/State.lean ====
section
/-!
SUPPORT. Laws/State.lean: one lemma per field per update of State, so that no later proof unfolds a record update.
-/
namespace Sys2Proof.Machine

/-! ### Indexed reads and writes -/

@[simp] theorem vector_get_set {α : Type} {n : Nat} (v : Vector α n) (i k : Fin n) (x : α) :
    (v.set i x).get k = if i = k then x else v.get k := by
  show (v.set i.val x)[k.val] = if i = k then x else v[k.val]
  rw [Vector.getElem_set]
  exact if_congr (by simp [Fin.ext_iff]) rfl rfl

@[simp] theorem vector_get_ofFn {α : Type} {n : Nat} (f : Fin n → α) (k : Fin n) : (Vector.ofFn f).get k = f k := by
  show (Vector.ofFn f)[k.val] = f k
  simp

@[simp] theorem vector_get_replicate {α : Type} {n : Nat} (x : α) (k : Fin n) : (Vector.replicate n x).get k = x := by
  show (Vector.replicate n x)[k.val] = x
  simp

/-! ### A junction is written -/

@[simp] theorem State.setJunction_pending (s : State) (j : JunctionNo) (x : Junction) : (s.setJunction j x).pending = s.pending := rfl
@[simp] theorem State.setJunction_clock (s : State) (j : JunctionNo) (x : Junction) : (s.setJunction j x).clock = s.clock := rfl
@[simp] theorem State.setJunction_image (s : State) (j : JunctionNo) (x : Junction) : (s.setJunction j x).image = s.image := rfl
@[simp] theorem State.setJunction_receivers (s : State) (j : JunctionNo) (x : Junction) : (s.setJunction j x).receivers = s.receivers := rfl
@[simp] theorem State.setJunction_signalFrame (s : State) (j : JunctionNo) (x : Junction) : (s.setJunction j x).signalFrame = s.signalFrame := rfl
@[simp] theorem State.setJunction_signalWaiting (s : State) (j : JunctionNo) (x : Junction) : (s.setJunction j x).signalWaiting = s.signalWaiting := rfl
@[simp] theorem State.setJunction_corridorFrame (s : State) (j : JunctionNo) (x : Junction) : (s.setJunction j x).corridorFrame = s.corridorFrame := rfl
@[simp] theorem State.setJunction_corridorWaiting (s : State) (j : JunctionNo) (x : Junction) : (s.setJunction j x).corridorWaiting = s.corridorWaiting := rfl
@[simp] theorem State.setJunction_slots (s : State) (j : JunctionNo) (x : Junction) : (s.setJunction j x).slots = s.slots := rfl
@[simp] theorem State.setJunction_hold (s : State) (j : JunctionNo) (x : Junction) : (s.setJunction j x).hold = s.hold := rfl
@[simp] theorem State.setJunction_corridorQueue (s : State) (j : JunctionNo) (x : Junction) : (s.setJunction j x).corridorQueue = s.corridorQueue := rfl
@[simp] theorem State.setJunction_sets (s : State) (j : JunctionNo) (x : Junction) : (s.setJunction j x).sets = s.sets := rfl
@[simp] theorem State.setJunction_stall (s : State) (j : JunctionNo) (x : Junction) : (s.setJunction j x).stall = s.stall := rfl
@[simp] theorem State.setJunction_waiting (s : State) (j : JunctionNo) (x : Junction) : (s.setJunction j x).waiting = s.waiting := rfl
@[simp] theorem State.setJunction_loads (s : State) (j : JunctionNo) (x : Junction) : (s.setJunction j x).loads = s.loads := rfl
@[simp] theorem State.setJunction_averagingDeadline (s : State) (j : JunctionNo) (x : Junction) : (s.setJunction j x).averagingDeadline = s.averagingDeadline := rfl
@[simp] theorem State.setJunction_anomalyFlags (s : State) (j : JunctionNo) (x : Junction) : (s.setJunction j x).anomalyFlags = s.anomalyFlags := rfl
@[simp] theorem State.setJunction_lastCause (s : State) (j : JunctionNo) (x : Junction) : (s.setJunction j x).lastCause = s.lastCause := rfl
@[simp] theorem State.setJunction_referral (s : State) (j : JunctionNo) (x : Junction) : (s.setJunction j x).referral = s.referral := rfl
@[simp] theorem State.setJunction_reliability (s : State) (j : JunctionNo) (x : Junction) : (s.setJunction j x).reliability = s.reliability := rfl
@[simp] theorem State.setJunction_leakDeadline (s : State) (j : JunctionNo) (x : Junction) : (s.setJunction j x).leakDeadline = s.leakDeadline := rfl
@[simp] theorem State.setJunction_marker (s : State) (j : JunctionNo) (x : Junction) : (s.setJunction j x).marker = s.marker := rfl
@[simp] theorem State.setJunction_replySlot (s : State) (j : JunctionNo) (x : Junction) : (s.setJunction j x).replySlot = s.replySlot := rfl
@[simp] theorem State.setJunction_busyList (s : State) (j : JunctionNo) (x : Junction) : (s.setJunction j x).busyList = s.busyList := rfl
@[simp] theorem State.setJunction_supervisorFrame (s : State) (j : JunctionNo) (x : Junction) : (s.setJunction j x).supervisorFrame = s.supervisorFrame := rfl
@[simp] theorem State.setJunction_noticeQueue (s : State) (j : JunctionNo) (x : Junction) : (s.setJunction j x).noticeQueue = s.noticeQueue := rfl
@[simp] theorem State.setJunction_noticeCounter (s : State) (j : JunctionNo) (x : Junction) : (s.setJunction j x).noticeCounter = s.noticeCounter := rfl
@[simp] theorem State.setJunction_overflow (s : State) (j : JunctionNo) (x : Junction) : (s.setJunction j x).overflow = s.overflow := rfl
@[simp] theorem State.setJunction_stored (s : State) (j : JunctionNo) (x : Junction) : (s.setJunction j x).stored = s.stored := rfl
@[simp] theorem State.setJunction_condition (s : State) (j : JunctionNo) (x : Junction) : (s.setJunction j x).condition = s.condition := rfl
@[simp] theorem State.setJunction_startPassed (s : State) (j : JunctionNo) (x : Junction) : (s.setJunction j x).startPassed = s.startPassed := rfl
@[simp] theorem State.setJunction_lock (s : State) (j : JunctionNo) (x : Junction) : (s.setJunction j x).lock = s.lock := rfl
@[simp] theorem State.setJunction_commit (s : State) (j : JunctionNo) (x : Junction) : (s.setJunction j x).commit = s.commit := rfl
@[simp] theorem State.setJunction_lastCommit (s : State) (j : JunctionNo) (x : Junction) : (s.setJunction j x).lastCommit = s.lastCommit := rfl
@[simp] theorem State.setJunction_freeIndex (s : State) (j : JunctionNo) (x : Junction) : (s.setJunction j x).freeIndex = s.freeIndex := rfl
@[simp] theorem State.setJunction_orderChoices (s : State) (j : JunctionNo) (x : Junction) : (s.setJunction j x).orderChoices = s.orderChoices := rfl

@[simp] theorem State.setJunction_junction (s : State) (j k : JunctionNo) (x : Junction) :
    (s.setJunction j x).junction k = if j = k then x else s.junction k := vector_get_set _ _ _ _

@[simp] theorem State.setJunction_load (s : State) (j k : JunctionNo) (x : Junction) : (s.setJunction j x).load k = s.load k := rfl

@[simp] theorem State.setJunction_track (s : State) (j : JunctionNo) (x : Junction) (p : Place) :
    (s.setJunction j x).track p = s.track p := rfl

/-! ### A way of the Track Table is written -/

@[simp] theorem State.putTrack_pending (s : State) (p : Place) (t : Option Track) : (s.putTrack p t).pending = s.pending := rfl
@[simp] theorem State.putTrack_clock (s : State) (p : Place) (t : Option Track) : (s.putTrack p t).clock = s.clock := rfl
@[simp] theorem State.putTrack_image (s : State) (p : Place) (t : Option Track) : (s.putTrack p t).image = s.image := rfl
@[simp] theorem State.putTrack_receivers (s : State) (p : Place) (t : Option Track) : (s.putTrack p t).receivers = s.receivers := rfl
@[simp] theorem State.putTrack_signalFrame (s : State) (p : Place) (t : Option Track) : (s.putTrack p t).signalFrame = s.signalFrame := rfl
@[simp] theorem State.putTrack_signalWaiting (s : State) (p : Place) (t : Option Track) : (s.putTrack p t).signalWaiting = s.signalWaiting := rfl
@[simp] theorem State.putTrack_corridorFrame (s : State) (p : Place) (t : Option Track) : (s.putTrack p t).corridorFrame = s.corridorFrame := rfl
@[simp] theorem State.putTrack_corridorWaiting (s : State) (p : Place) (t : Option Track) : (s.putTrack p t).corridorWaiting = s.corridorWaiting := rfl
@[simp] theorem State.putTrack_slots (s : State) (p : Place) (t : Option Track) : (s.putTrack p t).slots = s.slots := rfl
@[simp] theorem State.putTrack_hold (s : State) (p : Place) (t : Option Track) : (s.putTrack p t).hold = s.hold := rfl
@[simp] theorem State.putTrack_corridorQueue (s : State) (p : Place) (t : Option Track) : (s.putTrack p t).corridorQueue = s.corridorQueue := rfl
@[simp] theorem State.putTrack_stall (s : State) (p : Place) (t : Option Track) : (s.putTrack p t).stall = s.stall := rfl
@[simp] theorem State.putTrack_waiting (s : State) (p : Place) (t : Option Track) : (s.putTrack p t).waiting = s.waiting := rfl
@[simp] theorem State.putTrack_junctions (s : State) (p : Place) (t : Option Track) : (s.putTrack p t).junctions = s.junctions := rfl
@[simp] theorem State.putTrack_loads (s : State) (p : Place) (t : Option Track) : (s.putTrack p t).loads = s.loads := rfl
@[simp] theorem State.putTrack_averagingDeadline (s : State) (p : Place) (t : Option Track) : (s.putTrack p t).averagingDeadline = s.averagingDeadline := rfl
@[simp] theorem State.putTrack_anomalyFlags (s : State) (p : Place) (t : Option Track) : (s.putTrack p t).anomalyFlags = s.anomalyFlags := rfl
@[simp] theorem State.putTrack_lastCause (s : State) (p : Place) (t : Option Track) : (s.putTrack p t).lastCause = s.lastCause := rfl
@[simp] theorem State.putTrack_referral (s : State) (p : Place) (t : Option Track) : (s.putTrack p t).referral = s.referral := rfl
@[simp] theorem State.putTrack_reliability (s : State) (p : Place) (t : Option Track) : (s.putTrack p t).reliability = s.reliability := rfl
@[simp] theorem State.putTrack_leakDeadline (s : State) (p : Place) (t : Option Track) : (s.putTrack p t).leakDeadline = s.leakDeadline := rfl
@[simp] theorem State.putTrack_marker (s : State) (p : Place) (t : Option Track) : (s.putTrack p t).marker = s.marker := rfl
@[simp] theorem State.putTrack_replySlot (s : State) (p : Place) (t : Option Track) : (s.putTrack p t).replySlot = s.replySlot := rfl
@[simp] theorem State.putTrack_busyList (s : State) (p : Place) (t : Option Track) : (s.putTrack p t).busyList = s.busyList := rfl
@[simp] theorem State.putTrack_supervisorFrame (s : State) (p : Place) (t : Option Track) : (s.putTrack p t).supervisorFrame = s.supervisorFrame := rfl
@[simp] theorem State.putTrack_noticeQueue (s : State) (p : Place) (t : Option Track) : (s.putTrack p t).noticeQueue = s.noticeQueue := rfl
@[simp] theorem State.putTrack_noticeCounter (s : State) (p : Place) (t : Option Track) : (s.putTrack p t).noticeCounter = s.noticeCounter := rfl
@[simp] theorem State.putTrack_overflow (s : State) (p : Place) (t : Option Track) : (s.putTrack p t).overflow = s.overflow := rfl
@[simp] theorem State.putTrack_stored (s : State) (p : Place) (t : Option Track) : (s.putTrack p t).stored = s.stored := rfl
@[simp] theorem State.putTrack_condition (s : State) (p : Place) (t : Option Track) : (s.putTrack p t).condition = s.condition := rfl
@[simp] theorem State.putTrack_startPassed (s : State) (p : Place) (t : Option Track) : (s.putTrack p t).startPassed = s.startPassed := rfl
@[simp] theorem State.putTrack_lock (s : State) (p : Place) (t : Option Track) : (s.putTrack p t).lock = s.lock := rfl
@[simp] theorem State.putTrack_commit (s : State) (p : Place) (t : Option Track) : (s.putTrack p t).commit = s.commit := rfl
@[simp] theorem State.putTrack_lastCommit (s : State) (p : Place) (t : Option Track) : (s.putTrack p t).lastCommit = s.lastCommit := rfl
@[simp] theorem State.putTrack_freeIndex (s : State) (p : Place) (t : Option Track) : (s.putTrack p t).freeIndex = s.freeIndex := rfl
@[simp] theorem State.putTrack_orderChoices (s : State) (p : Place) (t : Option Track) : (s.putTrack p t).orderChoices = s.orderChoices := rfl

@[simp] theorem State.putTrack_junction (s : State) (p : Place) (t : Option Track) (j : JunctionNo) :
    (s.putTrack p t).junction j = s.junction j := rfl

@[simp] theorem State.putTrack_track_same (s : State) (p : Place) (t : Option Track) : (s.putTrack p t).track p = t := by
  rcases p with ⟨k, w⟩
  cases w <;> simp [State.putTrack, State.track]

theorem State.putTrack_track_other (s : State) (p q : Place) (t : Option Track) (h : p ≠ q) :
    (s.putTrack p t).track q = s.track q := by
  rcases p with ⟨k, w⟩
  rcases q with ⟨k', w'⟩
  by_cases hk : k = k'
  · subst hk
    cases w <;> cases w' <;> simp_all [State.putTrack, State.track]
  · cases w <;> cases w' <;> simp [State.putTrack, State.track, hk]

/-! ### A receiver returns to hunting -/

@[simp] theorem State.hunt_pending (s : State) (p : Port) : (s.hunt p).pending = s.pending := rfl
@[simp] theorem State.hunt_clock (s : State) (p : Port) : (s.hunt p).clock = s.clock := rfl
@[simp] theorem State.hunt_image (s : State) (p : Port) : (s.hunt p).image = s.image := rfl
@[simp] theorem State.hunt_signalFrame (s : State) (p : Port) : (s.hunt p).signalFrame = s.signalFrame := rfl
@[simp] theorem State.hunt_signalWaiting (s : State) (p : Port) : (s.hunt p).signalWaiting = s.signalWaiting := rfl
@[simp] theorem State.hunt_corridorFrame (s : State) (p : Port) : (s.hunt p).corridorFrame = s.corridorFrame := rfl
@[simp] theorem State.hunt_corridorWaiting (s : State) (p : Port) : (s.hunt p).corridorWaiting = s.corridorWaiting := rfl
@[simp] theorem State.hunt_slots (s : State) (p : Port) : (s.hunt p).slots = s.slots := rfl
@[simp] theorem State.hunt_hold (s : State) (p : Port) : (s.hunt p).hold = s.hold := rfl
@[simp] theorem State.hunt_corridorQueue (s : State) (p : Port) : (s.hunt p).corridorQueue = s.corridorQueue := rfl
@[simp] theorem State.hunt_sets (s : State) (p : Port) : (s.hunt p).sets = s.sets := rfl
@[simp] theorem State.hunt_stall (s : State) (p : Port) : (s.hunt p).stall = s.stall := rfl
@[simp] theorem State.hunt_waiting (s : State) (p : Port) : (s.hunt p).waiting = s.waiting := rfl
@[simp] theorem State.hunt_junctions (s : State) (p : Port) : (s.hunt p).junctions = s.junctions := rfl
@[simp] theorem State.hunt_loads (s : State) (p : Port) : (s.hunt p).loads = s.loads := rfl
@[simp] theorem State.hunt_averagingDeadline (s : State) (p : Port) : (s.hunt p).averagingDeadline = s.averagingDeadline := rfl
@[simp] theorem State.hunt_anomalyFlags (s : State) (p : Port) : (s.hunt p).anomalyFlags = s.anomalyFlags := rfl
@[simp] theorem State.hunt_lastCause (s : State) (p : Port) : (s.hunt p).lastCause = s.lastCause := rfl
@[simp] theorem State.hunt_referral (s : State) (p : Port) : (s.hunt p).referral = s.referral := rfl
@[simp] theorem State.hunt_reliability (s : State) (p : Port) : (s.hunt p).reliability = s.reliability := rfl
@[simp] theorem State.hunt_leakDeadline (s : State) (p : Port) : (s.hunt p).leakDeadline = s.leakDeadline := rfl
@[simp] theorem State.hunt_marker (s : State) (p : Port) : (s.hunt p).marker = s.marker := rfl
@[simp] theorem State.hunt_replySlot (s : State) (p : Port) : (s.hunt p).replySlot = s.replySlot := rfl
@[simp] theorem State.hunt_busyList (s : State) (p : Port) : (s.hunt p).busyList = s.busyList := rfl
@[simp] theorem State.hunt_supervisorFrame (s : State) (p : Port) : (s.hunt p).supervisorFrame = s.supervisorFrame := rfl
@[simp] theorem State.hunt_noticeQueue (s : State) (p : Port) : (s.hunt p).noticeQueue = s.noticeQueue := rfl
@[simp] theorem State.hunt_noticeCounter (s : State) (p : Port) : (s.hunt p).noticeCounter = s.noticeCounter := rfl
@[simp] theorem State.hunt_overflow (s : State) (p : Port) : (s.hunt p).overflow = s.overflow := rfl
@[simp] theorem State.hunt_stored (s : State) (p : Port) : (s.hunt p).stored = s.stored := rfl
@[simp] theorem State.hunt_condition (s : State) (p : Port) : (s.hunt p).condition = s.condition := rfl
@[simp] theorem State.hunt_startPassed (s : State) (p : Port) : (s.hunt p).startPassed = s.startPassed := rfl
@[simp] theorem State.hunt_lock (s : State) (p : Port) : (s.hunt p).lock = s.lock := rfl
@[simp] theorem State.hunt_commit (s : State) (p : Port) : (s.hunt p).commit = s.commit := rfl
@[simp] theorem State.hunt_lastCommit (s : State) (p : Port) : (s.hunt p).lastCommit = s.lastCommit := rfl
@[simp] theorem State.hunt_freeIndex (s : State) (p : Port) : (s.hunt p).freeIndex = s.freeIndex := rfl
@[simp] theorem State.hunt_orderChoices (s : State) (p : Port) : (s.hunt p).orderChoices = s.orderChoices := rfl

@[simp] theorem State.hunt_junction (s : State) (p : Port) (j : JunctionNo) : (s.hunt p).junction j = s.junction j := rfl

@[simp] theorem State.hunt_track (s : State) (p : Port) (q : Place) : (s.hunt p).track q = s.track q := rfl

@[simp] theorem State.hunt_load (s : State) (p : Port) (j : JunctionNo) : (s.hunt p).load j = s.load j := rfl

@[simp] theorem State.hunt_presentJunction (s : State) (p : Port) (n : Nat) :
    (s.hunt p).presentJunction n = s.presentJunction n := rfl

@[simp] theorem Receivers.at_put (r : Receivers) (p q : Port) (x : Option Clock) :
    (r.put p x).at q = if p = q then x else r.at q := by
  cases p <;> cases q <;> rfl

/-! ### An event begins -/

@[simp] theorem startEvent_pending (s : State) : (startEvent s).pending = s.pending := rfl
@[simp] theorem startEvent_clock (s : State) : (startEvent s).clock = s.clock := rfl
@[simp] theorem startEvent_image (s : State) : (startEvent s).image = s.image := rfl
@[simp] theorem startEvent_receivers (s : State) : (startEvent s).receivers = s.receivers := rfl
@[simp] theorem startEvent_signalFrame (s : State) : (startEvent s).signalFrame = s.signalFrame := rfl
@[simp] theorem startEvent_signalWaiting (s : State) : (startEvent s).signalWaiting = s.signalWaiting := rfl
@[simp] theorem startEvent_corridorFrame (s : State) : (startEvent s).corridorFrame = s.corridorFrame := rfl
@[simp] theorem startEvent_corridorWaiting (s : State) : (startEvent s).corridorWaiting = s.corridorWaiting := rfl
@[simp] theorem startEvent_slots (s : State) : (startEvent s).slots = s.slots := rfl
@[simp] theorem startEvent_hold (s : State) : (startEvent s).hold = s.hold := rfl
@[simp] theorem startEvent_corridorQueue (s : State) : (startEvent s).corridorQueue = s.corridorQueue := rfl
@[simp] theorem startEvent_sets (s : State) : (startEvent s).sets = s.sets := rfl
@[simp] theorem startEvent_stall (s : State) : (startEvent s).stall = s.stall := rfl
@[simp] theorem startEvent_waiting (s : State) : (startEvent s).waiting = s.waiting := rfl
@[simp] theorem startEvent_junctions (s : State) : (startEvent s).junctions = s.junctions := rfl
@[simp] theorem startEvent_loads (s : State) : (startEvent s).loads = s.loads := rfl
@[simp] theorem startEvent_averagingDeadline (s : State) : (startEvent s).averagingDeadline = s.averagingDeadline := rfl
@[simp] theorem startEvent_anomalyFlags (s : State) : (startEvent s).anomalyFlags = s.anomalyFlags := rfl
@[simp] theorem startEvent_lastCause (s : State) : (startEvent s).lastCause = s.lastCause := rfl
@[simp] theorem startEvent_referral (s : State) : (startEvent s).referral = s.referral := rfl
@[simp] theorem startEvent_reliability (s : State) : (startEvent s).reliability = s.reliability := rfl
@[simp] theorem startEvent_leakDeadline (s : State) : (startEvent s).leakDeadline = s.leakDeadline := rfl
@[simp] theorem startEvent_marker (s : State) : (startEvent s).marker = s.marker := rfl
@[simp] theorem startEvent_replySlot (s : State) : (startEvent s).replySlot = s.replySlot := rfl
@[simp] theorem startEvent_busyList (s : State) : (startEvent s).busyList = s.busyList := rfl
@[simp] theorem startEvent_supervisorFrame (s : State) : (startEvent s).supervisorFrame = s.supervisorFrame := rfl
@[simp] theorem startEvent_noticeQueue (s : State) : (startEvent s).noticeQueue = s.noticeQueue := rfl
@[simp] theorem startEvent_noticeCounter (s : State) : (startEvent s).noticeCounter = s.noticeCounter := rfl
@[simp] theorem startEvent_overflow (s : State) : (startEvent s).overflow = s.overflow := rfl
@[simp] theorem startEvent_stored (s : State) : (startEvent s).stored = s.stored := rfl
@[simp] theorem startEvent_condition (s : State) : (startEvent s).condition = s.condition := rfl
@[simp] theorem startEvent_startPassed (s : State) : (startEvent s).startPassed = s.startPassed := rfl
@[simp] theorem startEvent_lock (s : State) : (startEvent s).lock = s.lock := rfl
@[simp] theorem startEvent_commit (s : State) : (startEvent s).commit = s.commit := rfl
@[simp] theorem startEvent_lastCommit (s : State) : (startEvent s).lastCommit = s.lastCommit := rfl
@[simp] theorem startEvent_freeIndex (s : State) : (startEvent s).freeIndex = s.freeIndex := rfl
@[simp] theorem startEvent_orderChoices (s : State) : (startEvent s).orderChoices = s.orderChoices := rfl

@[simp] theorem startEvent_toState (s : State) : (startEvent s).toState = s := rfl

@[simp] theorem startEvent_triggered (s : State) : (startEvent s).triggered = .replicate 4 false := rfl

@[simp] theorem startEvent_orders (s : State) : (startEvent s).orders = [] := rfl

end Sys2Proof.Machine
end

