-- ==== Sys2Proof/Laws/PerInstr.lean ====
section
/-!
SUPPORT. Laws/PerInstr.lean: per command, the frame that brings it: a well-formed command's kind byte and body fit the length field of a frame (R185). One lemma
per constructor of Instr.
-/
namespace Sys2Proof.Machine

@[simp] theorem byte1_length (n : Nat) : (byte1 n).length = 1 := rfl

@[simp] theorem byte2_length (n : Nat) : (byte2 n).length = 2 := rfl

@[simp] theorem signed2_length (x : Int) : (signed2 x).length = 2 := rfl

@[simp] theorem flatMap_byte1_length (l : List Nat) : (l.flatMap byte1).length = l.length := by
  induction l with
  | nil => rfl
  | cons x xs ih => simp [ih, Nat.add_comm]

@[simp] theorem groupBytes_length (l : List Nat) : (groupBytes l).length = l.length := flatMap_byte1_length l

@[simp] theorem flatMap_pair_length (l : List (Nat × Nat)) :
    (l.flatMap fun p => byte1 p.1 ++ byte1 p.2).length = 2 * l.length := by
  induction l with
  | nil => rfl
  | cons x xs ih =>
    simp only [List.flatMap_cons, List.length_append, byte1_length, ih, List.length_cons]
    omega

theorem optional_length {α : Type} (f : α → List Byte) (n : Nat) (h : ∀ x, (f x).length = n) (o : Option α) :
    (optional f o).length ≤ 1 + n := by
  cases o <;> simp [optional, h]

theorem optionalField_length (f : OptionalField) : (optionalField f).length ≤ 2 := by
  unfold optionalField
  split <;> simp

theorem reportFields_length (b : ReportBody) : (reportFields b).length ≤ 8 := by
  have h (o : Option Int) := optional_length signed2 2 signed2_length o
  cases b <;> simp [reportFields]
  case checkIn _ _ _ d => have := h d; omega
  case position _ _ d => have := h d; omega
  case stopArrive _ d => have := h d; omega
  case stopDepart _ d => have := h d; omega

theorem writtenValues_length (v : WrittenEntry) (h : v.wf = true) : (writtenValues v).length ≤ 28 := by
  cases v <;> simp [writtenValues]
  case approach j _ _ _ x _ =>
    have := optionalField_length j
    have := optionalField_length x
    omega
  case entry a _ =>
    have := optionalField_length a
    omega
  case enables a g l r =>
    simp [WrittenEntry.wf, fitsGroup] at h
    omega

theorem requestContent_length {α : Type} (kind : Nat) (f : α → List Byte) (r : Request α) (x : Port × Byte × List Byte)
    (h : requestContent kind f r = some x) : ∃ b, r.body = some b ∧ x.2.2.length = 1 + (f b).length := by
  unfold requestContent at h
  cases hb : r.body with
  | none => simp [hb] at h
  | some b =>
    refine ⟨b, rfl, ?_⟩
    simp [hb] at h
    rw [← h]
    simp

end Sys2Proof.Machine

namespace Sys2Proof.Laws.Codec

open Sys2Proof.Machine

/-- The kind byte and the body of the frame that brings a well-formed command make at most 1024 bytes (R185). -/
def Statement (i : Instr) : Prop := i.wf = true → ∀ x, frameContent i = some x → 1 + x.2.2.length ≤ 1024


theorem coldStart : Statement (.coldStart) := fun _ _ h => nomatch h

theorem radioReport (frame : RadioFrame) : Statement (.radioReport frame) := by
  intro _ x h
  cases frame with
  | unfit again => cases h
  | misfit => cases h
  | unknownKind k => cases h; simp
  | report v a b =>
    cases h
    have := reportFields_length b
    simp
    omega

theorem frameTimeout (frame : LateFrame) : Statement (.frameTimeout frame) := fun _ _ h => nomatch h

theorem takeReport : Statement (.takeReport) := fun _ _ h => nomatch h

theorem takeHandOn : Statement (.takeHandOn) := fun _ _ h => nomatch h

theorem handOnArrival (record : HandOnFrame) : Statement (.handOnArrival record) := by
  intro _ x h
  cases h
  simp

theorem stallLimit : Statement (.stallLimit) := fun _ _ h => nomatch h

theorem phaseStatus (record : PhaseStatusFrame) : Statement (.phaseStatus record) := by
  intro _ x h
  cases h
  simp

theorem mirrorStale (j : JunctionNo) : Statement (.mirrorStale j) := fun _ _ h => nomatch h

theorem occupancy (junction percent : Nat) : Statement (.occupancy junction percent) := by
  intro _ x h
  cases h
  simp

theorem detectorCall (junction approach presence : Nat) : Statement (.detectorCall junction approach presence) := by
  intro _ x h
  cases h
  simp

theorem ack (junction : Nat) (tag : Tag) (accepted : Bool) : Statement (.ack junction tag accepted) := by
  intro _ x h
  cases h
  simp

theorem ackTimeout (j : JunctionNo) : Statement (.ackTimeout j) := fun _ _ h => nomatch h

theorem recoveryDeadline (j : JunctionNo) : Statement (.recoveryDeadline j) := fun _ _ h => nomatch h

theorem windowDeadline (j : JunctionNo) : Statement (.windowDeadline j) := fun _ _ h => nomatch h

theorem averagingDeadline : Statement (.averagingDeadline) := fun _ _ h => nomatch h

theorem leakDeadline : Statement (.leakDeadline) := fun _ _ h => nomatch h

theorem staleDeadline (set : SetNo) (way : Way) : Statement (.staleDeadline set way) := fun _ _ h => nomatch h

theorem expectDeadline (set : SetNo) (way : Way) : Statement (.expectDeadline set way) := fun _ _ h => nomatch h

theorem dwellDeadline (set : SetNo) (way : Way) : Statement (.dwellDeadline set way) := fun _ _ h => nomatch h

theorem referralDeadline : Statement (.referralDeadline) := fun _ _ h => nomatch h

theorem readStatus (r : Request Unit) : Statement (.readStatus r) := by
  intro _ x h
  obtain ⟨b, hb, hl⟩ := requestContent_length _ _ _ _ h
  simp at hl
  omega

theorem unknownRequest (kind number : Byte) : Statement (.unknownRequest kind number) := by
  intro _ x h
  cases h
  simp

theorem readTrack (r : Request Nat) : Statement (.readTrack r) := by
  intro _ x h
  obtain ⟨b, hb, hl⟩ := requestContent_length _ _ _ _ h
  simp at hl
  omega

theorem readSet (r : Request Nat) : Statement (.readSet r) := by
  intro _ x h
  obtain ⟨b, hb, hl⟩ := requestContent_length _ _ _ _ h
  simp at hl
  omega

theorem readJunction (r : Request Nat) : Statement (.readJunction r) := by
  intro _ x h
  obtain ⟨b, hb, hl⟩ := requestContent_length _ _ _ _ h
  simp at hl
  omega

theorem readList (r : Request Nat) : Statement (.readList r) := by
  intro _ x h
  obtain ⟨b, hb, hl⟩ := requestContent_length _ _ _ _ h
  simp at hl
  omega

theorem holdSlot (r : Request Nat) : Statement (.holdSlot r) := by
  intro _ x h
  obtain ⟨b, hb, hl⟩ := requestContent_length _ _ _ _ h
  simp at hl
  omega

theorem releaseSlot (r : Request Unit) : Statement (.releaseSlot r) := by
  intro _ x h
  obtain ⟨b, hb, hl⟩ := requestContent_length _ _ _ _ h
  simp at hl
  omega

theorem readConfig (r : Request ConfigRead) : Statement (.readConfig r) := by
  intro _ x h
  obtain ⟨b, hb, hl⟩ := requestContent_length _ _ _ _ h
  simp at hl
  omega

theorem readConfigSlot (r : Request Nat) : Statement (.readConfigSlot r) := by
  intro _ x h
  obtain ⟨b, hb, hl⟩ := requestContent_length _ _ _ _ h
  simp at hl
  omega

theorem writeConfig (r : Request ConfigWrite) : Statement (.writeConfig r) := by
  intro hw x h
  obtain ⟨b, hb, hl⟩ := requestContent_length _ _ _ _ h
  simp [Instr.wf, Request.wf, hb, ConfigWrite.wf] at hw
  have := writtenValues_length b.values hw.2
  simp at hl
  omega

theorem writeConfigSlot (r : Request SlotWrite) : Statement (.writeConfigSlot r) := by
  intro hw x h
  obtain ⟨b, hb, hl⟩ := requestContent_length _ _ _ _ h
  simp [Instr.wf, Request.wf, hb, SlotWrite.wf, fitsGroup] at hw
  simp at hl
  omega

theorem setGate (r : Request GateSetting) : Statement (.setGate r) := by
  intro _ x h
  obtain ⟨b, hb, hl⟩ := requestContent_length _ _ _ _ h
  simp at hl
  omega

theorem setEnables (r : Request EnablesSetting) : Statement (.setEnables r) := by
  intro hw x h
  obtain ⟨b, hb, hl⟩ := requestContent_length _ _ _ _ h
  simp [Instr.wf, Request.wf, hb, EnablesSetting.wf] at hw
  simp at hl
  omega

theorem clearFlags (r : Request FlagSets) : Statement (.clearFlags r) := by
  intro hw x h
  obtain ⟨b, hb, hl⟩ := requestContent_length _ _ _ _ h
  simp [Instr.wf, Request.wf, hb, FlagSets.wf] at hw
  simp [counted] at hl
  omega

theorem clearFault (r : Request FaultClear) : Statement (.clearFault r) := by
  intro hw x h
  obtain ⟨b, hb, hl⟩ := requestContent_length _ _ _ _ h
  simp [Instr.wf, Request.wf, hb, FaultClear.wf, fitsList, fits1] at hw
  simp [counted] at hl
  omega

theorem rule (r : Request Ruling) : Statement (.rule r) := by
  intro _ x h
  obtain ⟨b, hb, hl⟩ := requestContent_length _ _ _ _ h
  have := optional_length byte2 2 byte2_length b.value
  simp at hl
  omega

theorem tag (r : Request Nat) : Statement (.tag r) := by
  intro _ x h
  obtain ⟨b, hb, hl⟩ := requestContent_length _ _ _ _ h
  simp at hl
  omega

theorem untag (r : Request Nat) : Statement (.untag r) := by
  intro _ x h
  obtain ⟨b, hb, hl⟩ := requestContent_length _ _ _ _ h
  simp at hl
  omega

theorem clearJunction (r : Request Nat) : Statement (.clearJunction r) := by
  intro _ x h
  obtain ⟨b, hb, hl⟩ := requestContent_length _ _ _ _ h
  simp at hl
  omega

theorem restart (r : Request Unit) : Statement (.restart r) := by
  intro _ x h
  obtain ⟨b, hb, hl⟩ := requestContent_length _ _ _ _ h
  simp at hl
  omega

theorem commitConfig (r : Request Unit) : Statement (.commitConfig r) := by
  intro _ x h
  obtain ⟨b, hb, hl⟩ := requestContent_length _ _ _ _ h
  simp at hl
  omega

theorem lockConfig (r : Request Unit) : Statement (.lockConfig r) := by
  intro _ x h
  obtain ⟨b, hb, hl⟩ := requestContent_length _ _ _ _ h
  simp at hl
  omega

theorem storeWriteComplete (ok : Bool) : Statement (.storeWriteComplete ok) := fun _ _ h => nomatch h

theorem supervisorFrameComplete : Statement (.supervisorFrameComplete) := fun _ _ h => nomatch h

theorem portFrameComplete (port : SendPort) : Statement (.portFrameComplete port) := fun _ _ h => nomatch h

theorem corridorClockTick : Statement (.corridorClockTick) := fun _ _ h => nomatch h

theorem markerByte (port : Port) : Statement (.markerByte port) := fun _ _ h => nomatch h

theorem abandonedFrame (port : Port) (reason : AbandonReason) : Statement (.abandonedFrame port reason) := fun _ _ h => nomatch h

end Sys2Proof.Laws.Codec
end

