-- ==== Sys2Proof/Laws/Quiet.lean ====
section
/-!
SUPPORT. Laws/Quiet.lean: what the end of an event does when the event has triggered no junction and sent no order (R102, R179, R186), and what a
supervisor request then comes to (R169–R171).
-/
namespace Sys2Proof.Machine

/-- An event that has triggered no junction and sent no order. -/
abbrev Event.quiet (e : Event) : Prop := e.triggered = .replicate 4 false ∧ e.orders = []

theorem startEvent_quiet (s : State) : (startEvent s).quiet := ⟨rfl, rfl⟩

theorem triggeredJunctions_quiet (e : Event) (h : e.triggered = .replicate 4 false) : triggeredJunctions e = [] := by
  simp [triggeredJunctions, h]

/-- With no trigger, no junction evaluates (R102). -/
theorem settle_quiet (e : Event) (h : e.triggered = .replicate 4 false) : settle e = e := by
  unfold settle
  rw [triggeredJunctions_quiet e h]
  simp [← h]

theorem transmitOrders_quiet (e : Event) (h : e.orders = []) : transmitOrders e = e.toState := by
  have hn : inJunctionOrder [] = [] := by decide
  rw [transmitOrders, h, hn]
  rfl

/-- A transmitter that is busy, or has nothing to send, begins nothing (R179). -/
theorem beginSupervisor_settled (e : Event) (h : e.linkSettled) : beginSupervisor e = e := by
  unfold beginSupervisor
  cases hf : e.supervisorFrame with
  | some f => rfl
  | none =>
    obtain ⟨h1, h2, h3⟩ := h hf
    simp [h1, h2, h3]

theorem finish_quiet (e : Event) (h : e.quiet) (hl : e.linkSettled) : finish e = e.toState := by
  rw [finish, settle_quiet e h.1, beginSupervisor_settled e hl, settle_quiet e h.1, transmitOrders_quiet e h.2]

/-- An event that triggers nothing, sends nothing and offers the link nothing ends as it stands. -/
theorem event_quiet (f : Event → Event) (s : State) (h : (f (startEvent s)).quiet) (hl : (f (startEvent s)).linkSettled) :
    event f s = (f (startEvent s)).toState := finish_quiet _ h hl

theorem beginSupervisor_busy (e : Event) (f : SupervisorFrame) (h : e.supervisorFrame = some f) : beginSupervisor e = e := by
  unfold beginSupervisor
  rw [h]

/-- An idle transmitter with no BUSY answer before it begins the reply that waits (R179). -/
theorem beginSupervisor_reply (e : Event) (r : SlotReply) (h : e.supervisorFrame = none) (hr : e.replySlot = some r)
    (hb : e.busyList = []) : beginSupervisor e = beginFrame (.reply r.reply) { e with replySlot := none } := by
  have hf : (e.replySlot.filter fun r => r.ahead == 0 || e.busyList.isEmpty) = some r := by simp [hr, hb]
  unfold beginSupervisor
  rw [h]
  simp only []
  rw [hf]

/-- An idle transmitter begins the BUSY answer that waits before the reply of the slot (R179). -/
theorem beginSupervisor_answer (e : Event) (b : BusyAnswer) (rest : List BusyAnswer) (h : e.supervisorFrame = none)
    (hr : ∀ r, e.replySlot = some r → r.ahead ≠ 0) (hb : e.busyList = b :: rest) :
    beginSupervisor e =
      beginFrame (.busy b) { e with busyList := rest, replySlot := e.replySlot.map fun r => { r with ahead := r.ahead - 1 } } := by
  have hf : (e.replySlot.filter fun r => r.ahead == 0 || e.busyList.isEmpty) = none := by
    cases hs : e.replySlot with
    | none => rfl
    | some r => simp [hb, hr r hs]
  unfold beginSupervisor
  rw [h]
  simp only []
  rw [hf, hb]

/-- A reply placed on a busy transmitter waits in the slot (R171). -/
theorem replied_busy (s : State) (kind number : Byte) (result : Result) (body : ReplyBody) (f : SupervisorFrame)
    (h : s.supervisorFrame = some f) :
    s.replied kind number result body =
      { s with
        marker := true
        replySlot := some { reply := { kind := kind, number := number, result := result, body := body },
                            ahead := s.busyList.length } } := by
  unfold State.replied
  split <;> simp_all

/-- A reply placed on an idle transmitter goes out at once (R179). -/
theorem replied_idle (s : State) (kind number : Byte) (result : Result) (body : ReplyBody) (h : s.supervisorFrame = none)
    (hb : s.busyList = []) :
    s.replied kind number result body =
      { s with
        marker := true
        replySlot := none
        supervisorFrame := some (.reply { kind := kind, number := number, result := result, body := body }) } := by
  unfold State.replied
  split <;> simp_all

/-- A reply placed behind a BUSY answer lets it go out first (R179). -/
theorem replied_behind (s : State) (kind number : Byte) (result : Result) (body : ReplyBody) (b : BusyAnswer)
    (rest : List BusyAnswer) (h : s.supervisorFrame = none) (hb : s.busyList = b :: rest) :
    s.replied kind number result body =
      { s with
        marker := true
        replySlot := some { reply := { kind := kind, number := number, result := result, body := body }, ahead := rest.length }
        busyList := rest
        supervisorFrame := some (.busy b) } := by
  unfold State.replied
  split <;> simp_all

/-- A reply that has been placed: the end of the event begins the answer whose request arrived first (R179). -/
theorem finish_placeReply (kind number : Byte) (a : Answer) (e : Event) (h : e.quiet) :
    finish (placeReply kind number a e) =
      e.toState.replied kind number a.result (a.bodyAt e.toState) := by
  have hq : (placeReply kind number a e).triggered = .replicate 4 false := h.1
  have ho : (placeReply kind number a e).orders = [] := h.2
  rw [finish, settle_quiet _ hq]
  cases hf : e.supervisorFrame with
  | some f =>
    rw [beginSupervisor_busy _ f (by exact hf), settle_quiet _ hq, transmitOrders_quiet _ ho]
    rw [replied_busy _ _ _ _ _ f hf]
    rfl
  | none =>
    cases hb : e.busyList with
    | nil =>
      rw [beginSupervisor_reply _ _ (by exact hf) rfl (by exact hb), settle_quiet _ (by exact h.1), transmitOrders_quiet _ (by exact h.2)]
      rw [replied_idle _ _ _ _ _ hf hb]
      rfl
    | cons b rest =>
      rw [beginSupervisor_answer _ b rest (by exact hf) (by intro r hr; cases hr; simp [hb]) (by exact hb),
        settle_quiet _ (by exact h.1), transmitOrders_quiet _ (by exact h.2)]
      rw [replied_behind _ _ _ _ _ b rest hf hb]
      simp [beginFrame, placeReply, hb]

/-- A request that arrives while none is in progress and whose body fits its kind is answered by its owner, and what the owner did stands (R169,
R171), where its work has triggered no junction. -/
theorem request_answered {α : Type} (kind : Byte) (r : Request α) (handle : α → Event → Answer) (s : State) (b : α)
    (hm : s.marker = false) (hb : r.body = some b) (hq : (handle b (startEvent (s.hunt .supervisor))).after.quiet) :
    request kind r handle s =
      (handle b (startEvent (s.hunt .supervisor))).after.toState.replied kind r.number
        (handle b (startEvent (s.hunt .supervisor))).result
        ((handle b (startEvent (s.hunt .supervisor))).bodyAt (handle b (startEvent (s.hunt .supervisor))).after.toState) := by
  simp only [request, hm, hb, Bool.false_eq_true, if_false]
  rw [settle_quiet _ hq.1, finish_placeReply _ _ _ _ hq]

/-- A request whose body does not fit its kind is MALFORMED and changes nothing (R169 step 3). -/
theorem request_misfit {α : Type} (kind : Byte) (r : Request α) (handle : α → Event → Answer) (s : State)
    (hm : s.marker = false) (hb : r.body = none) :
    request kind r handle s = (s.hunt .supervisor).replied kind r.number .malformed .empty := by
  simp only [request, hm, hb, Bool.false_eq_true, if_false]
  rw [settle_quiet _ (by rfl), finish_placeReply _ _ _ _ (by exact ⟨rfl, rfl⟩)]
  rfl

/-- A request that arrives while one is in progress is answered BUSY by the link, and handed to no block (R170). -/
theorem request_busy {α : Type} (kind : Byte) (r : Request α) (handle : α → Event → Answer) (s : State) (hm : s.marker = true)
    (hl : s.linkSettled) : request kind r handle s = (s.hunt .supervisor).busied kind r.number := by
  simp only [request, hm, if_true]
  cases hf : s.supervisorFrame with
  | some f =>
    have hq : (answerBusy kind r.number (startEvent (s.hunt .supervisor))).quiet := by
      unfold answerBusy
      split <;> exact ⟨rfl, rfl⟩
    have hs : (answerBusy kind r.number (startEvent (s.hunt .supervisor))).supervisorFrame = some f := by
      unfold answerBusy
      split <;> exact hf
    rw [finish_quiet _ hq (by intro h; simp [hs] at h)]
    have hx : (s.hunt .supervisor).supervisorFrame.isNone = false := by simp [hf]
    by_cases hn : s.busyList.length < 4
    · have ha : answerBusy kind r.number (startEvent (s.hunt .supervisor)) =
          { startEvent (s.hunt .supervisor) with busyList := s.busyList ++ [{ kind := kind, number := r.number }] } := if_pos hn
      rw [ha, State.busied, hx]
      exact (if_pos hn).symm
    · have ha : answerBusy kind r.number (startEvent (s.hunt .supervisor)) = startEvent (s.hunt .supervisor) := if_neg hn
      rw [ha, State.busied, hx]
      exact (if_neg hn).symm
  | none =>
    obtain ⟨h1, h2, h3⟩ := hl hf
    have hn : s.busyList.length < 4 := by simp [h2]
    have ha : answerBusy kind r.number (startEvent (s.hunt .supervisor)) =
        { startEvent (s.hunt .supervisor) with busyList := s.busyList ++ [{ kind := kind, number := r.number }] } := if_pos hn
    have hb : (answerBusy kind r.number (startEvent (s.hunt .supervisor))).busyList = [{ kind := kind, number := r.number }] := by
      rw [ha, h2]
      rfl
    have hs : (s.hunt .supervisor).busied kind r.number =
        { s.hunt .supervisor with supervisorFrame := some (.busy { kind := kind, number := r.number }) } := by
      simp [State.busied, hf]
    rw [finish, settle_quiet (answerBusy kind r.number (startEvent (s.hunt .supervisor))) (by rw [ha]; rfl),
      beginSupervisor_answer _ _ [] (by rw [ha]; exact hf) (by rw [ha]; intro x hx; exact absurd (h1.symm.trans hx) (by simp)) hb,
      settle_quiet _ (by rw [ha]; rfl), transmitOrders_quiet _ (by rw [ha]; rfl), ha, hs]
    have hr : (s.hunt .supervisor).replySlot = none := h1
    have hl : (s.hunt .supervisor).busyList = [] := h2
    simp only [beginFrame, startEvent_replySlot, hr, Option.map_none]
    rw [← hl, ← hr]
    rfl

end Sys2Proof.Machine
end

