-- ==== Sys2Proof/Laws/Steady.lean ====
section
/-!
SUPPORT. Laws/Steady.lean: what no event of the junctions, the tracks and the link reaches. One lemma per shared operation: it leaves the steady parts of
State as they stand, so that a frame is proved without unfolding an operation again.
-/
namespace Sys2Proof.Machine

/-- A fold of operations that keep the steady parts keeps them. -/
theorem foldl_steady {α : Type} (f : Event → α → Event) (h : ∀ e x, (f e x).steady = e.steady) (l : List α) (e : Event) :
    (l.foldl f e).steady = e.steady := by
  induction l generalizing e with
  | nil => rfl
  | cons x xs ih => exact (ih _).trans (h e x)


@[simp] theorem modJunction_steady (j : JunctionNo) (f : Junction → Junction) (e : Event) :
    (modJunction j f e).steady = e.steady := rfl

@[simp] theorem trigger_steady (j : JunctionNo) (e : Event) : (trigger j e).steady = e.steady := rfl

@[simp] theorem setTrack_steady (p : Place) (t : Option Track) (e : Event) : (setTrack p t e).steady = e.steady := rfl

@[simp] theorem modTrack_steady (p : Place) (f : Track → Track) (e : Event) : (modTrack p f e).steady = e.steady := by
  unfold modTrack
  split <;> simp

@[simp] theorem mapTracks_steady (f : Track → Track) (e : Event) : (mapTracks f e).steady = e.steady := by
  unfold mapTracks State.steady
  rfl

@[simp] theorem noticeTrack_steady (j : JunctionNo) (r : TrackRef) (f : Track → Track) (e : Event) :
    (noticeTrack j r f e).steady = e.steady := by
  simp [noticeTrack]

@[simp] theorem offer_steady (b : NoticeBody) (e : Event) : (offer b e).steady = e.steady := by
  unfold offer
  split <;> rfl

@[simp] theorem sendOrder_steady (j : JunctionNo) (o : Order) (ofGrant : Bool) (e : Event) :
    (sendOrder j o ofGrant e).steady = e.steady := rfl

@[simp] theorem needOrder_steady (j : JunctionNo) (o : Order) (ofGrant : Bool) (e : Event) :
    (needOrder j o ofGrant e).steady = e.steady := by
  unfold needOrder
  split <;> simp

@[simp] theorem setRequestState_steady (j : JunctionNo) (x : Entry) (state : RequestState) (verdict : Option LastVerdict) (e : Event) :
    (setRequestState j x state verdict e).steady = e.steady := by
  simp [setRequestState]

@[simp] theorem review_steady (j : JunctionNo) (e : Event) : (review j e).steady = e.steady := rfl

@[simp] theorem charge_steady (j : JunctionNo) (offered : Nat) (e : Event) : (charge j offered e).2.steady = e.steady := by
  unfold charge
  dsimp only
  split <;> simp

@[simp] theorem refund_steady (j : JunctionNo) (amount : Nat) (window : WindowNumber) (e : Event) :
    (refund j amount window e).steady = e.steady := by
  unfold refund
  dsimp only
  (repeat' split) <;> simp

@[simp] theorem raiseAnomaly_steady (a : Anomaly) (e : Event) : (raiseAnomaly a e).2.steady = e.steady := by
  unfold raiseAnomaly
  dsimp only
  split
  · exact offer_steady _ _
  · rfl

@[simp] theorem closeReferral_steady (e : Event) : (closeReferral e).steady = e.steady := by
  unfold closeReferral
  (repeat' split) <;> rfl

@[simp] theorem withdrawTrackReferral_steady (vehicle : Nat) (e : Event) :
    (withdrawTrackReferral vehicle e).steady = e.steady := by
  unfold withdrawTrackReferral
  split <;> simp

@[simp] theorem withdrawConflict_steady (j : JunctionNo) (e : Event) : (withdrawConflict j e).steady = e.steady := by
  unfold withdrawConflict
  split <;> simp

@[simp] theorem countPhantom_steady (a : ApproachNo) (vehicle : Nat) (j : JunctionNo) (e : Event) :
    (countPhantom a vehicle j e).steady = e.steady := by
  unfold countPhantom
  dsimp only
  split
  · exact offer_steady _ _
  · rfl

@[simp] theorem makeWaiting_steady (j : JunctionNo) (pick : Entry → Bool) (e : Event) :
    (makeWaiting j pick e).steady = e.steady := by
  unfold makeWaiting
  exact foldl_steady _ (fun e x => by simp) _ _

@[simp] theorem applyVerdict_steady (j : JunctionNo) (x : Entry) (v : LastVerdict) (e : Event) :
    (applyVerdict j x v e).steady = e.steady := by
  simp [applyVerdict]

@[simp] theorem modGrant_steady (j : JunctionNo) (f : Grant → Grant) (e : Event) : (modGrant j f e).steady = e.steady := rfl

@[simp] theorem startGrant_steady (j : JunctionNo) (x : Entry) (v : Verdict) (e : Event) :
    (startGrant j x v e).steady = e.steady := by
  unfold startGrant freshNat
  split
  · simp only [review_steady, setRequestState_steady, needOrder_steady, modJunction_steady]
    rfl
  · rfl

@[simp] theorem openGrant_steady (j : JunctionNo) (x : Entry) (v : Verdict) (e : Event) :
    (openGrant j x v e).steady = e.steady := by
  simp [openGrant]

@[simp] theorem finishSequence_steady (j : JunctionNo) (e : Event) : (finishSequence j e).steady = e.steady := by
  unfold finishSequence
  dsimp only
  split <;> simp

@[simp] theorem grantEndNotice_steady (j : JunctionNo) (g : Grant) (ending : Ending) (borrowed : Nat) (e : Event) :
    (grantEndNotice j g ending borrowed e).steady = e.steady := by
  unfold grantEndNotice
  split <;> simp

@[simp] theorem endGrant_steady (j : JunctionNo) (ending : Ending) (amount : Nat) (e : Event) :
    (endGrant j ending amount e).steady = e.steady := by
  unfold endGrant
  split <;> simp

@[simp] theorem sendPending_steady (j : JunctionNo) (e : Event) : (sendPending j e).steady = e.steady := by
  unfold sendPending
  dsimp only
  (repeat' split) <;> simp

@[simp] theorem dropGrant_steady (j : JunctionNo) (e : Event) : (dropGrant j e).steady = e.steady := by
  unfold dropGrant
  split <;> simp

@[simp] theorem raiseFault_steady (j : JunctionNo) (k : FaultKind) (tag : Tag) (e : Event) :
    (raiseFault j k tag e).steady = e.steady := by
  simp [raiseFault]

@[simp] theorem closeGrant_steady (j : JunctionNo) (o : Order) (ending : Ending) (e : Event) :
    (closeGrant j o ending e).steady = e.steady := by
  simp [closeGrant]

@[simp] theorem transferGrant_steady (j : JunctionNo) (x : Entry) (e : Event) : (transferGrant j x e).steady = e.steady := by
  simp [transferGrant]

@[simp] theorem holderPassed_steady (j : JunctionNo) (e : Event) : (holderPassed j e).steady = e.steady := by
  unfold holderPassed
  dsimp only
  (repeat' split) <;> simp

@[simp] theorem holderLeft_steady (j : JunctionNo) (ending : Ending) (e : Event) :
    (holderLeft j ending e).steady = e.steady := by
  unfold holderLeft
  (repeat' split) <;> simp

@[simp] theorem preempt_steady (j : JunctionNo) (target : Entry) (e : Event) : (preempt j target e).steady = e.steady := by
  simp [preempt]

@[simp] theorem expireGrant_steady (j : JunctionNo) (e : Event) : (expireGrant j e).steady = e.steady := by
  unfold expireGrant
  split <;> simp

@[simp] theorem grantStartNotice_steady (j : JunctionNo) (o : Order) (e : Event) :
    (grantStartNotice j o e).steady = e.steady := by
  unfold grantStartNotice
  (repeat' split) <;> simp

@[simp] theorem acceptExtend_steady (j : JunctionNo) (g : Grant) (total : Nat) (e : Event) :
    (acceptExtend j g total e).steady = e.steady := by
  unfold acceptExtend
  dsimp only
  (repeat' split) <;> simp

@[simp] theorem acceptEarly_steady (j : JunctionNo) (g : Grant) (cuts : List (PhaseNo × Nat)) (e : Event) :
    (acceptEarly j g cuts e).steady = e.steady := by
  simp [acceptEarly]

@[simp] theorem acceptTime_steady (j : JunctionNo) (o : Order) (e : Event) : (acceptTime j o e).steady = e.steady := by
  unfold acceptTime
  (repeat' split) <;> simp

@[simp] theorem takeOver_steady (j : JunctionNo) (target : Option Nat) (e : Event) :
    (takeOver j target e).steady = e.steady := by
  unfold takeOver
  dsimp only
  (repeat' split) <;> simp

@[simp] theorem acceptClose_steady (j : JunctionNo) (o : Order) (e : Event) : (acceptClose j o e).steady = e.steady := by
  unfold acceptClose
  dsimp only
  (repeat' split) <;> simp

@[simp] theorem acceptOrphan_steady (j : JunctionNo) (o : Order) (e : Event) : (acceptOrphan j o e).steady = e.steady := by
  unfold acceptOrphan
  split <;> simp

@[simp] theorem answerOutstanding_steady (j : JunctionNo) (o : Outstanding) (accepted : Bool) (e : Event) :
    (answerOutstanding j o accepted e).steady = e.steady := by
  unfold answerOutstanding
  (repeat' split) <;> simp

@[simp] theorem answerAbandoned_steady (j : JunctionNo) (k : OrderKind) (accepted : Bool) (e : Event) :
    (answerAbandoned j k accepted e).steady = e.steady := by
  unfold answerAbandoned
  split <;> simp

@[simp] theorem matchAck_steady (j : JunctionNo) (tag : Tag) (accepted : Bool) (e : Event) :
    (matchAck j tag accepted e).steady = e.steady := by
  unfold matchAck
  dsimp only
  (repeat' split) <;> simp

@[simp] theorem timeoutOrder_steady (j : JunctionNo) (o : Outstanding) (e : Event) :
    (timeoutOrder j o e).steady = e.steady := by
  simp [timeoutOrder]

@[simp] theorem resetJunction_steady (j : JunctionNo) (e : Event) : (resetJunction j e).steady = e.steady := rfl

@[simp] theorem clearJunction_steady (j : JunctionNo) (e : Event) : (clearJunction j e).steady = e.steady := by
  simp [clearJunction]

@[simp] theorem dropClaim_steady (j : JunctionNo) (vehicle : Nat) (e : Event) : (dropClaim j vehicle e).steady = e.steady := by
  unfold dropClaim
  dsimp only
  (repeat' split) <;> simp

@[simp] theorem leaveList_steady (j : JunctionNo) (vehicle : Nat) (e : Event) : (leaveList j vehicle e).steady = e.steady := by
  simp [leaveList]

@[simp] theorem listEntry_steady (j : JunctionNo) (p : Posting) (e : Event) : (listEntry j p e).steady = e.steady := by
  simp [listEntry]

@[simp] theorem displace_steady (j : JunctionNo) (x : Entry) (e : Event) : (displace j x e).steady = e.steady := by
  simp [displace]

@[simp] theorem recheckRider_steady (j : JunctionNo) (vehicle : Nat) (e : Event) :
    (recheckRider j vehicle e).steady = e.steady := by
  unfold recheckRider
  dsimp only
  (repeat' split) <;> simp

@[simp] theorem updateRequest_steady (j : JunctionNo) (p : Posting) (e : Event) : (updateRequest j p e).steady = e.steady := by
  simp [updateRequest]

@[simp] theorem postFull_steady (j : JunctionNo) (p : Posting) (e : Event) : (postFull j p e).steady = e.steady := by
  unfold postFull
  dsimp only
  (repeat' split) <;> simp

@[simp] theorem postRequest_steady (j : JunctionNo) (p : Posting) (e : Event) : (postRequest j p e).steady = e.steady := by
  unfold postRequest
  dsimp only
  (repeat' split) <;> simp

@[simp] theorem withdrawRequest_steady (j : JunctionNo) (vehicle : Nat) (way : Way) (cause : Cause) (e : Event) :
    (withdrawRequest j vehicle way cause e).steady = e.steady := by
  unfold withdrawRequest
  (repeat' split) <;> simp

@[simp] theorem withdrawTrack_steady (p : Place) (cause : Cause) (e : Event) :
    (withdrawTrack p cause e).steady = e.steady := by
  unfold withdrawTrack
  (repeat' split) <;> simp

@[simp] theorem withdrawApproach_steady (a : ApproachNo) (e : Event) : (withdrawApproach a e).steady = e.steady := by
  unfold withdrawApproach
  exact foldl_steady _ (fun e x => by split <;> simp) _ _

@[simp] theorem markReferred_steady (p : Place) (referred : Bool) (e : Event) :
    (markReferred p referred e).steady = e.steady := by
  unfold markReferred
  (repeat' split) <;> simp

@[simp] theorem resolveWinner_steady (j : JunctionNo) (w : Entry) (v : Verdict) (e : Event) :
    (resolveWinner j w v e).steady = e.steady := by
  unfold resolveWinner
  dsimp only
  (repeat' split) <;> simp

@[simp] theorem walkJunction_steady (j : JunctionNo) (skip : Option Nat) (e : Event) :
    (walkJunction j skip e).2.steady = e.steady := rfl

@[simp] theorem evaluateCarried_steady (j : JunctionNo) (c : Carry) (e : Event) :
    (evaluateCarried j c e).steady = e.steady := by
  unfold evaluateCarried
  dsimp only
  (repeat' split) <;> first
    | simp; done
    | rename_i heq; have hk := congrArg (fun r => r.2.steady) heq; simp at hk; simp [← hk]

@[simp] theorem evaluate_steady (j : JunctionNo) (e : Event) : (evaluate j e).steady = e.steady := by
  unfold evaluate
  dsimp only
  (repeat' split) <;> first
    | simp; done
    | rename_i heq; have hk := congrArg (fun r => r.2.steady) heq; simp at hk; simp [← hk]

@[simp] theorem riderTest_steady (j : JunctionNo) (g : Grant) (e : Event) : (riderTest j g e).steady = e.steady := by
  unfold riderTest
  exact foldl_steady _ (fun e x => by simp) _ _

@[simp] theorem preemptionTest_steady (j : JunctionNo) (g : Grant) (e : Event) :
    (preemptionTest j g e).2.steady = e.steady := by
  unfold preemptionTest
  (repeat' split) <;> simp

@[simp] theorem stretchTest_steady (j : JunctionNo) (g : Grant) (e : Event) : (stretchTest j g e).steady = e.steady := by
  unfold stretchTest
  dsimp only
  (repeat' split) <;> simp

@[simp] theorem grantTests_steady (j : JunctionNo) (e : Event) : (grantTests j e).steady = e.steady := by
  unfold grantTests
  dsimp only
  (repeat' split) <;> simp

@[simp] theorem endServed_steady (j : JunctionNo) (h : Entry) (state : RequestState) (v : Option LastVerdict) (e : Event) :
    (endServed j h state v e).steady = e.steady := by
  simp [endServed]

@[simp] theorem completeEarly_steady (j : JunctionNo) (g : Grant) (m : Mirror) (e : Event) :
    (completeEarly j g m e).steady = e.steady := by
  unfold completeEarly
  dsimp only
  (repeat' split) <;> simp

@[simp] theorem mirrorGrant_steady (j : JunctionNo) (m : Mirror) (e : Event) : (mirrorGrant j m e).steady = e.steady := by
  unfold mirrorGrant
  (repeat' split) <;> simp

@[simp] theorem settleJunction_steady (j : JunctionNo) (e : Event) : (settleJunction j e).steady = e.steady := by
  unfold settleJunction
  dsimp only
  (repeat' split) <;> simp

@[simp] theorem settle_steady (e : Event) : (settle e).steady = e.steady := by
  unfold settle
  extract_lets js e0 e1
  have h1 : e1.steady = e.steady := by
    show (if 2 ≤ js.length then _ else _ : Event).steady = _
    split
    · exact foldl_steady _ (fun e j => settleJunction_steady j e) _ _
    · exact foldl_steady _ (fun e j => settleJunction_steady j e) _ _
  exact h1

@[simp] theorem formed_steady (ks : List DeadlineKind) (e : Event) : (formed ks e).steady = e.steady := rfl

@[simp] theorem sendHandOn_steady (h : OutHandOn) (e : Event) : (sendHandOn h e).steady = e.steady := by
  unfold sendHandOn
  (repeat' split) <;> first | simp; done | rfl

@[simp] theorem decideRequest_steady (p : Place) (suspended : Bool) (e : Event) :
    (decideRequest p suspended e).steady = e.steady := by
  unfold decideRequest
  (repeat' split) <;> simp

@[simp] theorem holdTrack_steady (p : Place) (base : Track) (e : Event) : (holdTrack p base e).steady = e.steady := by
  simp [holdTrack]

@[simp] theorem checkDistance_steady (q : Ask) (length : Nat) (e : Event) :
    (checkDistance q length e).2.steady = e.steady := by
  unfold checkDistance
  split <;> simp

@[simp] theorem checkReversal_steady (q : Ask) (D : Nat) (e : Event) : (checkReversal q D e).2.steady = e.steady := by
  unfold checkReversal
  (repeat' split) <;> simp

@[simp] theorem checkHorizon_steady (q : Ask) (D delta : Nat) (e : Event) :
    (checkHorizon q D delta e).2.steady = e.steady := by
  unfold checkHorizon
  (repeat' split) <;> simp

@[simp] theorem completePrediction_steady (q : Ask) (D : Nat) (e : Event) : (completePrediction q D e).steady = e.steady := by
  unfold completePrediction
  dsimp only
  (repeat' split) <;> first
    | simp; done
    | rename_i heq; have hk := congrArg (fun r => r.2.steady) heq; simp at hk; simp [← hk]

@[simp] theorem predict_steady (q : Ask) (e : Event) : (predict q e).steady = e.steady := by
  unfold predict
  extract_lets length
  rcases hd : checkDistance q length e with ⟨o1, e1⟩
  have h1 : e1.steady = e.steady := by simpa [hd] using checkDistance_steady q length e
  cases o1 with
  | none => exact (holdTrack_steady _ _ _).trans h1
  | some D1 =>
    rcases hr : checkReversal q (clamp 1 length D1) e1 with ⟨o2, e2⟩
    have h2 : e2.steady = e.steady := by
      rw [← h1]
      simpa [hr] using checkReversal_steady q (clamp 1 length D1) e1
    cases o2 with
    | none => simp [hr, h2]
    | some D2 => simp [hr, h2]

@[simp] theorem passage_steady (p : Place) (t : Track) (pass : Clock) (e : Event) :
    (passage p t pass e).steady = e.steady := by
  unfold passage
  split <;> simp

@[simp] theorem invalidateTail_steady (p : Place) (why : LossCause) (e : Event) :
    (invalidateTail p why e).steady = e.steady := by
  unfold invalidateTail
  (repeat' split) <;> simp

@[simp] theorem dropRecord_steady (p : Place) (e : Event) : (dropRecord p e).steady = e.steady := by
  simp [dropRecord]

@[simp] theorem withWriteBack_steady (p : Place) (w : Work) (go : Event → Event) (e : Event) (h : ∀ e, (go e).steady = e.steady) :
    (withWriteBack p w go e).steady = e.steady := by
  unfold withWriteBack
  split
  · exact h e
  · split
    · rw [h, dropRecord_steady, offer_steady]
    · rfl

@[simp] theorem invalidate_steady (p : Place) (why : LossCause) (e : Event) : (invalidate p why e).steady = e.steady := by
  simp [invalidate]

@[simp] theorem startApproach_steady (p : Place) (r : Report) (fresh : Bool) (e : Event) :
    (startApproach p r fresh e).steady = e.steady := by
  unfold startApproach
  (repeat' split) <;> simp

@[simp] theorem predictReport_steady (p : Place) (r : Report) (m : Manner) (a : ApproachNo) (t made : Track) (D s : Nat) (forms : List DeadlineKind) (e : Event) :
    (predictReport p r m a t made D s forms e).steady = e.steady := by
  simp [predictReport]

@[simp] theorem actPosition_steady (p : Place) (r : Report) (m : Manner) (a : ApproachNo) (t : Track) (D s : Nat) (e : Event) :
    (actPosition p r m a t D s e).steady = e.steady := by
  unfold actPosition
  split <;> simp

@[simp] theorem actRefresh_steady (p : Place) (r : Report) (t : Track) (e : Event) :
    (actRefresh p r t e).steady = e.steady := rfl

@[simp] theorem actArrive_steady (p : Place) (r : Report) (m : Manner) (a : ApproachNo) (t : Track) (k : Nat) (e : Event) :
    (actArrive p r m a t k e).steady = e.steady := by
  unfold actArrive
  split <;> simp

@[simp] theorem actDepart_steady (p : Place) (r : Report) (m : Manner) (a : ApproachNo) (t : Track) (k : Nat) (e : Event) :
    (actDepart p r m a t k e).steady = e.steady := by
  simp [actDepart]

@[simp] theorem actCheckIn_steady (p : Place) (r : Report) (m : Manner) (t : Track) (D s : Nat) (e : Event) :
    (actCheckIn p r m t D s e).steady = e.steady := by
  unfold actCheckIn
  (repeat' split) <;> simp

@[simp] theorem actRunning_steady (p : Place) (r : Report) (m : Manner) (a : ApproachNo) (t : Track) (e : Event) :
    (actRunning p r m a t e).steady = e.steady := by
  unfold actRunning
  split <;> simp

@[simp] theorem actCleared_steady (p : Place) (r : Report) (m : Manner) (t : Track) (e : Event) :
    (actCleared p r m t e).steady = e.steady := by
  unfold actCleared
  split <;> simp

@[simp] theorem actExpected_steady (p : Place) (r : Report) (m : Manner) (t : Track) (e : Event) :
    (actExpected p r m t e).steady = e.steady := by
  unfold actExpected
  split <;> simp

@[simp] theorem actReport_steady (p : Place) (r : Report) (m : Manner) (e : Event) :
    (actReport p r m e).steady = e.steady := by
  unfold actReport
  (repeat' split) <;> simp

@[simp] theorem complementAge_steady (k : SetNo) (e : Event) : (complementAge k e).steady = e.steady := rfl

@[simp] theorem allocate_steady (p : Place) (make : (Nat → Nat) → Track) (e : Event) :
    (allocate p make e).steady = e.steady := by
  unfold allocate
  rw [complementAge_steady, setTrack_steady]
  exact invalidateTail_steady _ _ _

@[simp] theorem allocateReport_steady (p : Place) (r : Report) (g : GroupNo) (e : Event) :
    (allocateReport p r g e).steady = e.steady := by
  unfold allocateReport
  split <;> simp

@[simp] theorem allocateHandOn_steady (p : Place) (h : HandOn) (g : GroupNo) (link : Nat) (e : Event) :
    (allocateHandOn p h g link e).steady = e.steady := by
  simp [allocateHandOn]

@[simp] theorem placeReport_steady (r : Report) (g : GroupNo) (e : Event) : (placeReport r g e).steady = e.steady := by
  simp [placeReport]

@[simp] theorem departByDefault_steady (p : Place) (stamp : Clock) (e : Event) :
    (departByDefault p stamp e).steady = e.steady := by
  unfold departByDefault
  (repeat' split) <;> simp

@[simp] theorem expireDwell_steady (p : Place) (time : Clock) (e : Event) : (expireDwell p time e).steady = e.steady := by
  unfold expireDwell
  dsimp only
  (repeat' split) <;> simp

@[simp] theorem expireTrack_steady (k : DeadlineKind) (p : Place) (time : Clock) (e : Event) :
    (expireTrack k p time e).steady = e.steady := by
  unfold expireTrack
  split <;> simp

@[simp] theorem expireFormed_steady (k : DeadlineKind) (p : Place) (d : Option Clock) (e : Event) :
    (expireFormed k p d e).steady = e.steady := by
  unfold expireFormed
  (repeat' split) <;> simp

@[simp] theorem takeOverdue_steady (p : Place) (e : Event) : (takeOverdue p e).steady = e.steady := by
  unfold takeOverdue
  dsimp only
  (repeat' split) <;> simp

@[simp] theorem workOn_steady (p : Place) (go : Event → Event) (e : Event) (h : ∀ e, (go e).steady = e.steady) :
    (workOn p go e).steady = e.steady := by
  unfold workOn
  rw [takeOverdue_steady, h]

@[simp] theorem missCheckIn_steady (r : Report) (route : Nat) (e : Event) : (missCheckIn r route e).steady = e.steady := by
  unfold missCheckIn
  (repeat' split) <;> first | simp; done | rfl

@[simp] theorem screenHit_steady (p : Place) (t : Track) (r : Report) (e : Event) : (screenHit p t r e).steady = e.steady := by
  unfold screenHit
  (repeat' split) <;> simp

@[simp] theorem screenReport_steady (r : Report) (e : Event) : (screenReport r e).steady = e.steady := by
  unfold screenReport
  (repeat' split) <;> simp

@[simp] theorem handleHandOn_steady (h : HandOn) (e : Event) : (handleHandOn h e).steady = e.steady := by
  unfold handleHandOn
  dsimp only
  (repeat' split) <;>
    first
    | (simp; done)
    | exact workOn_steady _ _ _ (fun e => by (repeat' split) <;> simp)

@[simp] theorem actFirst_steady (p : Place) (r : Report) (m : Manner) (t : Track) (e : Event) :
    (actFirst p r m t e).steady = e.steady := by
  unfold actFirst
  split <;> simp

@[simp] theorem actReturned_steady (p : Place) (r : Report) (m : Manner) (t : Track) (e : Event) :
    (actReturned p r m t e).steady = e.steady := by
  unfold actReturned
  split <;> simp

@[simp] theorem returnReport_steady (p : Place) (cls : AnomalyClass) (d : Disposal) (r : Report) (first : Bool) (candidate : Option Nat) (t : Track)
    (e : Event) :
    (returnReport p cls d r first candidate t e).steady = e.steady := by
  unfold returnReport
  (repeat' split) <;> simp

@[simp] theorem predictDwell_steady (p : Place) (remaining : Nat) (stage : Stage) (t : Track) (e : Event) :
    (predictDwell p remaining stage t e).steady = e.steady := by
  unfold predictDwell
  split <;> simp

@[simp] theorem returnDwell_steady (p : Place) (d : Disposal) (opening : Clock) (t : Track) (e : Event) :
    (returnDwell p d opening t e).steady = e.steady := by
  unfold returnDwell
  (repeat' split) <;> simp

@[simp] theorem returnToTrack_steady (p : Place) (m : Return) (t : Track) (e : Event) :
    (returnToTrack p m t e).steady = e.steady := by
  unfold returnToTrack
  (repeat' split) <;> simp

@[simp] theorem returnUnplaced_steady (r : Report) (group : Nat) (e : Event) :
    (returnUnplaced r group e).steady = e.steady := by
  unfold returnUnplaced
  (repeat' split) <;> simp

@[simp] theorem handleReturn_steady (m : Return) (e : Event) : (handleReturn m e).steady = e.steady := by
  unfold handleReturn
  (repeat' split) <;> simp

@[simp] theorem giveReturn_steady (m : Return) (e : Event) : (giveReturn m e).steady = e.steady := by
  unfold giveReturn
  (repeat' split) <;> first | simp; done | rfl

@[simp] theorem handleWaiting_steady (w : Waiting) (e : Event) : (handleWaiting w e).steady = e.steady := by
  unfold handleWaiting
  (repeat' split) <;> simp

@[simp] theorem drainWaiting_steady (l : List Waiting) (e : Event) : (drainWaiting l e).steady = e.steady := by
  induction l generalizing e with
  | nil => rfl
  | cons w ws ih =>
    unfold drainWaiting
    dsimp only
    split
    · exact handleWaiting_steady w e
    · rw [ih, handleWaiting_steady]

@[simp] theorem finishWork_steady (p : Place) (w : Work) (e : Event) : (finishWork p w e).steady = e.steady := by
  unfold finishWork
  split <;> simp

@[simp] theorem endStall_steady (x : Stall) (e : Event) : (endStall x e).steady = e.steady := by
  unfold endStall
  extract_lets e1
  have h1 : e1.steady = e.steady := (finishWork_steady _ _ _).trans (dropRecord_steady _ _)
  split
  · exact h1
  · rw [drainWaiting_steady, h1]

@[simp] theorem takeClaim_steady (e : Event) : (takeClaim e).2.steady = e.steady := rfl

@[simp] theorem claimRoom_steady (e : Event) : (claimRoom e).steady = e.steady := by
  unfold claimRoom
  (repeat' split) <;> first | rfl | (rw [endStall_steady]; rfl) | rw [endStall_steady]

@[simp] theorem takeRoom_steady (e : Event) : (takeRoom e).steady = e.steady := by
  unfold takeRoom
  dsimp only
  (repeat' split) <;> first | rfl | (rw [claimRoom_steady]; rfl)

@[simp] theorem fallDue_steady (k : DeadlineKind) (p : Place) (e : Event) : (fallDue k p e).steady = e.steady := by
  unfold fallDue
  dsimp only
  (repeat' split) <;> first | simp; done | rfl

@[simp] theorem beginFrame_steady (f : SupervisorFrame) (e : Event) : (beginFrame f e).steady = e.steady := rfl

@[simp] theorem beginSupervisor_steady (e : Event) : (beginSupervisor e).steady = e.steady := by
  unfold beginSupervisor
  split
  · rfl
  · split
    · rfl
    · rfl
    · split
      · rfl
      · exact takeRoom_steady _

@[simp] theorem answerBusy_steady (kind number : Byte) (e : Event) : (answerBusy kind number e).steady = e.steady := by
  unfold answerBusy
  split <;> rfl

theorem takeOrderFrame_steady (s : State) (o : SentOrder) : (takeOrderFrame s o).steady = s.steady := by
  unfold takeOrderFrame
  (repeat' split) <;> rfl

@[simp] theorem transmitOrders_steady (e : Event) : (transmitOrders e).steady = e.steady := by
  unfold transmitOrders
  generalize inJunctionOrder e.orders = os
  generalize e.toState = s
  induction os generalizing s with
  | nil => rfl
  | cons o os ih => exact (ih _).trans (takeOrderFrame_steady s o)

/-- The end of an event leaves the steady parts. -/
@[simp] theorem finish_steady (e : Event) : (finish e).steady = e.steady := by
  simp [finish]

/-- An event changes of the steady parts only what its own work changes. -/
theorem event_steady (f : Event → Event) (s : State) : (event f s).steady = (f (startEvent s)).steady := finish_steady _

@[simp] theorem placeReply_steady (kind number : Byte) (a : Answer) (e : Event) :
    (placeReply kind number a e).steady = { e.steady with marker := true } := rfl

/-- A request that finds one in progress changes of the steady parts the receiver alone (R170). -/
theorem request_busy_steady {α : Type} (kind : Byte) (r : Request α) (handle : α → Event → Answer) (s : State)
    (h : s.marker = true) : (request kind r handle s).steady = (s.hunt .supervisor).steady := by
  simp [request, h]

/-- A request that is handled changes of the steady parts what its owner changes, and sets the marker (R170, R171). -/
theorem request_steady {α : Type} (kind : Byte) (r : Request α) (handle : α → Event → Answer) (s : State) (b : α)
    (h : s.marker = false) (hb : r.body = some b) :
    (request kind r handle s).steady =
      { (handle b (startEvent (s.hunt .supervisor))).after.steady with marker := true } := by
  simp [request, h, hb]

/-- A request whose body does not fit changes of the steady parts the receiver and the marker alone (R169 step 3). -/
theorem request_misfit_steady {α : Type} (kind : Byte) (r : Request α) (handle : α → Event → Answer) (s : State)
    (h : s.marker = false) (hb : r.body = none) :
    (request kind r handle s).steady = { (s.hunt .supervisor).steady with marker := true } := by
  simp [request, h, hb, refuse]

end Sys2Proof.Machine
end

