-- ==== Sys2Proof/Tests/Slice0.lean ====
section
/-!
SUPPORT. Tests/Slice0.lean: checks of well-formedness, a few worked cases of the manual, and for every statement with hypotheses a state and operands
that meet them, clause by clause.
-/
namespace Sys2Proof.Tests

/- One theorem at a time: with many kernel evaluations at once the compiler runs out of threads. -/
set_option Elab.async false

open Sys2Proof Sys2Proof.Machine

/-! ### Well-formedness: an ill-formed command for each check -/

theorem test_wf_ok : (Instr.radioReport (.report 39 2 (.checkIn 12 620 60 (some 60)))).wf = true := by decide
theorem test_wf_report_kind : (Instr.radioReport (.unknownKind 3)).wf = false := by decide
theorem test_wf_report_vehicle : (Instr.radioReport (.report 65536 0 .passed)).wf = false := by decide
theorem test_wf_report_approach : (Instr.radioReport (.report 1 256 .passed)).wf = false := by decide
theorem test_wf_report_distance : (Instr.radioReport (.report 1 0 (.position 65536 0 none))).wf = false := by decide
theorem test_wf_report_deviation : (Instr.radioReport (.report 1 0 (.stopArrive 0 (some 32768)))).wf = false := by decide
theorem test_wf_report_route : (Instr.radioReport (.report 1 0 (.checkIn 65536 0 0 none))).wf = false := by decide
theorem test_wf_report_stop : (Instr.radioReport (.report 1 0 (.stopDepart 256 none))).wf = false := by decide
theorem test_wf_hand_on : (Instr.handOnArrival { vehicle := 1, route := 1, deviation := -32769, entry := 0 }).wf = false := by decide
theorem test_wf_phase_status :
    (Instr.phaseStatus { junction := 0, phase := 0, interval := .green, elapsed := 65536, remaining := 0 }).wf = false := by decide
theorem test_wf_occupancy : (Instr.occupancy 0 256).wf = false := by decide
theorem test_wf_detector_call : (Instr.detectorCall 0 0 256).wf = false := by decide
theorem test_wf_ack : (Instr.ack 256 0 true).wf = false := by decide
theorem test_wf_unknown_request : (Instr.unknownRequest 0x01 0).wf = false := by decide
theorem test_wf_read_track : (Instr.readTrack { number := 0, body := some 65536 }).wf = false := by decide
theorem test_wf_read_set : (Instr.readSet { number := 0, body := some 256 }).wf = false := by decide
theorem test_wf_read_config : (Instr.readConfig { number := 0, body := some { table := .reach, index := 256 } }).wf = false := by decide
theorem test_wf_optional :
    (Instr.writeConfig { number := 0, body := some { index := 0, values := .entry { presence := 0, value := 3 } 0 } }).wf = false := by decide
theorem test_wf_write_phase :
    (Instr.writeConfig { number := 0, body := some { index := 0, values := .phase 65536 0 0 0 0 } }).wf = false := by decide
theorem test_wf_write_enables :
    (Instr.writeConfig { number := 0, body := some { index := 0, values := .enables [] [] [] [] } }).wf = false := by decide
theorem test_wf_slot_write :
    (Instr.writeConfigSlot { number := 0, body := some { index := 0, code := 1, approachSwitches := [1], kindSwitches := [] } }).wf = false := by
  decide
theorem test_wf_set_gate :
    (Instr.setGate { number := 0, body := some { junction := 0, mode := 256, m := 0, u := 0, tu := 2 } }).wf = false := by decide
theorem test_wf_set_enables : (Instr.setEnables { number := 0, body := some { group := 256, switches := [] } }).wf = false := by decide
theorem test_wf_clear_flags :
    (Instr.clearFlags { number := 0, body := some { slots := [256], rises := [], classes := [], approaches := [], overflow := 0 } }).wf = false := by
  decide
theorem test_wf_clear_fault : (Instr.clearFault { number := 0, body := some { junction := 0, kinds := [256] } }).wf = false := by decide
theorem test_wf_rule : (Instr.rule { number := 0, body := some { cls := 0, vehicle := 0, ruling := 2, value := some 65536 } }).wf = false := by
  decide
theorem test_wf_heard_too_long : (Instr.abandonedFrame .signal (.length (heardTogether (List.replicate 1029 0)))).wf = false := by decide +kernel
theorem test_wf_heard_ages :
    (Instr.frameTimeout { port := .corridor, bytes := [{ byte := 0, age := 1 }, { byte := 0, age := 2 }] }).wf = false := by decide
theorem test_wf_report_unfit : (Instr.radioReport (.unfit [{ byte := 0, age := 1 }, { byte := 0, age := 2 }])).wf = false := by decide
theorem test_wf_heard : (Instr.radioReport (.unfit [{ byte := 0, age := 2 }, { byte := 0xC3, age := 2 }, { byte := 0, age := 0 }])).wf = true := by decide

/-! ### Worked cases of the manual -/

/-- §1.9, R18: a write that lowers T_HI to 30 while T_LO is 40 and T_MID is 60 is stored with T_HI = 61. -/
theorem test_threshold_lowered : (applyWrite builtInDefaults (.parameter 17 30)).thresholdHi = 61 := by decide +kernel

/-- R18: a write that raises T_LO to 100 leaves T_MID at 101 and T_HI at 101. -/
theorem test_threshold_raised :
    (applyWrite builtInDefaults (.parameter 15 100)).thresholdMid = 101 ∧ (applyWrite builtInDefaults (.parameter 15 100)).thresholdHi = 101 := by
  decide +kernel

/-- R115: the savings 250 from P0, 0 from the guarded P1 and 120 from P2; a cut of 300 gives (P0, 250), (P2, 50). -/
theorem test_cut_list : distributeCut 300 [(0, 250), (1, 0), (2, 120)] = [(0, 250), (2, 50)] := by decide

/-- R115: a cut of 100 gives the list (P0, 100). -/
theorem test_cut_list_short : distributeCut 100 [(0, 250), (1, 0), (2, 120)] = [(0, 100)] := by decide

/-- §7.2: at the wrap of the clock, 5 is later than 2^32 − 5. -/
theorem test_clock_wraps : later 5 (0 - 5) = true ∧ later (0 - 5) 5 = false := by decide

/-- R83: a lateness is held at +6000 ds. -/
theorem test_deviation_clamped : deviationDs 700 = 6000 ∧ deviationDs (-400) = -3000 := by decide

/-- R185: by hand, a first byte of all ones cancels the high half of the initial value, and no bit is divided. -/
theorem test_crc_byte : crc [0xFF] = 0xFF00 := by decide +kernel

/-! ### Small states: junction J1 and approach A2 as §1.10 configures them -/

def testPhases : Vector PhaseEntry 32 :=
  (((builtInDefaults.phases.set 8 { split := 400, minGreen := 100, clearance := 50, maxExtension := 0, guarded := false }).set 9
    { split := 300, minGreen := 100, clearance := 50, maxExtension := 0, guarded := true }).set 10
    { split := 200, minGreen := 80, clearance := 50, maxExtension := 150, guarded := false }).set 11
    { split := 300, minGreen := 100, clearance := 50, maxExtension := 0, guarded := false }

def testReaches : Vector ReachEntry 128 :=
  ((builtInDefaults.reaches.set 16 { length := 400, cruise := 120, stop := false, dwellMode := .none, fixedDwell := 0 }).set 17
    { length := 250, cruise := 100, stop := true, dwellMode := .fixed, fixedDwell := 200 }).set 18
    { length := 150, cruise := 80, stop := false, dwellMode := .none, fixedDwell := 0 }

def testImage : Image :=
  { builtInDefaults with
    junctions := builtInDefaults.junctions.set 1 { present := true, phaseCount := 4 }
    phases := testPhases
    approaches := builtInDefaults.approaches.set 2
      { junction := some 1, busPhase := 2, reachCount := 3, trust := 2, exitTarget := none, secondaryLimit := 1 }
    reaches := testReaches
    enables := { allOff with approach := (Vector.replicate 16 false).set 2 true, grantNotice := .replicate 4 true } }

def openGate : Gate := { mode := .uniform, m := false, u := false, tu := 3 }

/-- The unit at a clock, with its first START notice in transmission and J1 as given. -/
def unitAt (now : Clock) (f : Junction → Junction) : State :=
  { State.reset with image := testImage, clock := now }.setJunction 1 (f (coldJunction openGate (now + 3000)))

/-- Vehicle 39 on approach A2 (§4.10), before its report. -/
def bus39 : Track :=
  { vehicle := 39, route := 12, group := 0, state := .approaching, approach := some 2, reach := 0, distance := 780, speed := 100,
    reportTime := 9990, lastSeen := some 9990, deviation := none, stopArrive := none, dwellStop := none, lastDeparted := none,
    eta := some 10900, nominal := 900, lateness := 0, cls := .onTime, tier := 1, pinned := false, listed := none, firstListed := none,
    firstEta := none, lastEta := some 10900, action := .none, borrowed := 0, journey := none, expectDeadline := none,
    referralOpen := false, superseded := 0, staleDeadline := some 10290, dwellDeadline := none }

def place39 : Place := placeOf 39 .a

def withBus (t : Track) (s : State) : State := s.putTrack place39 (some t)

def reportOf (b : ReportBody) (stamp : Clock) : Report := { vehicle := 39, approach := 2, body := b, stamp := stamp }

/-- A report waits in slot 0. -/
def waiting (r : Report) (s : State) : State :=
  { s with slots := s.slots.set 0 { coldSlot with code := .full, report := some r } }

/-- The request of vehicle 39 (§6.9). -/
def entry39 : Entry :=
  { vehicle := 39, way := .a, approach := 2, busPhase := 2, tier := 2, cls := .late, eta := 10883, suspended := false, firstListed := 10001,
    confirmed := false, referred := false, state := .waiting, hold := none, verdict := some .defer }

/-- The grant of vehicle 39 right after 10650 (§6.9); its charge window is free, here 0. -/
def grant39 : Grant :=
  { holder := some { vehicle := 39, way := .a }, busPhase := 2, kind := .extend, windowStart := 10650, bound := 10913, plannedEnd := some 10850,
    extensionInForce := 0, cut := 0, cutCharged := 0, extensionCharged := 0, chargeWindow := 0, closing := false, target := none,
    candidate := none, ending := none, lastHolder := { vehicle := 39, way := .a }, startDue := true }

def green (elapsed remaining : Nat) (receipt : Clock) : Mirror :=
  { phase := 2, interval := .green, elapsed := elapsed, remaining := remaining, receipt := receipt }

def extend39 : Outstanding := { order := .extend 2 63, tag := 17, deadline := 10670, ofGrant := true }

/-- J1 right after 10650 (§6.9). -/
def ordering39 (x : Junction) : Junction :=
  { x with
    list := [{ entry39 with state := .granted, verdict := none }], gate := { openGate with m := true }, saved := some openGate,
    mirror := some (green 0 200 10650), stale := false, staleDeadline := some 10680, state := .ordering, tagCounter := 18,
    outstanding := some extend39, grant := some grant39 }

def release39 : Outstanding := { order := .release 2, tag := 18, deadline := 10910, ofGrant := true }

/-- J1 right after 10890 (§6.9). -/
def closing39 (x : Junction) : Junction :=
  { ordering39 x with
    list := [], tagCounter := 19, outstanding := some release39, used := 63
    grant := some { grant39 with
      holder := none, extensionInForce := 63, extensionCharged := 63, closing := true, ending := some .passed, startDue := false } }

/-- The state a command leads to. -/
def result (c : Instr) (s : State) : State :=
  match exec c s with
  | .next t => t
  | .fault _ => s
  | .refused _ => s

/-! ### Worked sequences -/

/-- §4.10: the results that the report of vehicle 39 writes. -/
theorem test_worked_position :
    ((result .takeReport (withBus bus39 (waiting (reportOf (.position 620 60 (some 60)) 10000) (unitAt 10000 id)))).track place39).map
      (fun t => (t.distance, t.eta, t.nominal, t.lateness, t.cls, t.tier)) = some (620, some 10883, 822, 661, .late, 2) := by
  decide +kernel

def update10650 : Instr := .phaseStatus { junction := 1, phase := 2, interval := .green, elapsed := 0, remaining := 200 }

/-- J1 right before 10650 (§6.9). -/
def idle39 (x : Junction) : Junction := { x with list := [entry39], tagCounter := 17 }

/-- §6.9, 10650: the grant begins. -/
theorem test_worked_extend :
    let x := (result update10650 (unitAt 10650 idle39)).junction 1
    x.state = .ordering ∧ x.outstanding = some extend39 ∧ x.saved = some openGate ∧ x.gate = { openGate with m := true } ∧
      x.grant.map (·.bound) = some 10913 := by
  decide +kernel

/-- §6.9, 10652: the window takes 63, and the bus has borrowed 63. -/
theorem test_worked_charge :
    let t := result (.ack 1 17 true) (withBus { bus39 with eta := some 10883, tier := 2, pinned := true, listed := some 1 } (unitAt 10652 ordering39))
    (t.junction 1).used = 63 ∧ (t.junction 1).state = .inForce ∧ (t.track place39).map (fun u => (u.action, u.borrowed)) = some (.extend, 63) := by
  decide +kernel

/-- §6.9, 10895: the refund is 18, and J1 recovers until 10940. -/
theorem test_worked_refund :
    let x := (result (.ack 1 18 true) (unitAt 10895 closing39)).junction 1
    x.used = 45 ∧ x.sequenceBorrowed = 45 ∧ x.recoveryDeadline = some 10940 ∧ x.gate = openGate ∧ x.saved = none := by
  decide +kernel

/-- §6.10, 10670: J1 freezes, and tag 17 is abandoned. -/
theorem test_worked_timeout :
    let x := (result (.ackTimeout 1) (unitAt 10670 ordering39)).junction 1
    x.state = .frozen ∧ x.abandoned = some (17, .extend) ∧ x.faults.noAck = true ∧ x.gate = openGate ∧
      x.list.map (fun y => (y.state, y.hold)) = [(.held, some .frozen)] := by
  decide +kernel

/-- §5.8, R104: at 10001 the verdict on vehicle 39 is DEFER. -/
theorem test_worked_defer :
    (unitAt 10001 fun x => { x with
      mirror := some { phase := 0, interval := .green, elapsed := 150, remaining := 250, receipt := 10000 } }).judge 1 entry39 = .keep .defer := by
  decide +kernel

/-! ### Witnesses: states and operands that meet the hypotheses of each statement -/

def base : State := unitAt 10000 id

/-- The unit with its transmitter idle. -/
def idleLink (s : State) : State := { s with supervisorFrame := none }

theorem base_steps : step base = .next base := rfl

theorem runs_stallLimit {i : Instr} (h : Runs .stallLimit i) : i = .stallLimit := by
  cases h with
  | self => rfl
  | found _ _ _ _ _ abandons => cases abandons

/-- ClockMovesByTickAndColdStart, ImagesChangeByTheirCommandsAlone, IntakeAndMonitorsChangeByTheirCommandsAlone, LockBarsPhasesAndCommits,
PhantomsLeak, ChargesStayUnderTheCap: a command that is none of those named, and runs none of them. -/
theorem test_w_frames :
    Instr.stallLimit ≠ .corridorClockTick ∧ Instr.stallLimit ≠ .coldStart ∧ (∀ r, ¬ Runs .stallLimit (.writeConfig r)) ∧
      (∀ r, ¬ Runs .stallLimit (.setEnables r)) ∧ (∀ r, ¬ Runs .stallLimit (.lockConfig r)) ∧ Instr.stallLimit ≠ .leakDeadline ∧
      (∀ i, Runs .stallLimit i → requestOf i = none) ∧ (∀ n tag a, ¬ Runs .stallLimit (.ack n tag a)) ∧ exec .stallLimit base = .next base :=
  ⟨nofun, nofun, fun _ h => (nomatch runs_stallLimit h), fun _ h => (nomatch runs_stallLimit h), fun _ h => (nomatch runs_stallLimit h), nofun,
    fun _ h => by rw [runs_stallLimit h]; rfl, fun _ _ _ h => (nomatch runs_stallLimit h), rfl⟩

/-- A marker, an OCCUPANCY of J1, some bytes after it, and how many ds ago each arrived. -/
def swallowed (m : Nat) (last : Nat) (post : List HeardByte) : List HeardByte :=
  { byte := 0xC3, age := m } :: (((encodeFrame (.occupancy 1 50)).map (·.2)).getD []).map (fun b => { byte := b, age := last }) ++ post

/-- The same statements: an abandoned frame runs the OCCUPANCY found in it, and the load follows (R186). -/
theorem test_w_found :
    Runs (.abandonedFrame .signal (.length (swallowed 3 0 []))) (.occupancy 1 50) ∧
      (result (.abandonedFrame .signal (.length (swallowed 3 0 []))) base).loads = (result (.occupancy 1 50) base).loads ∧
      (result (.occupancy 1 50) base).loads ≠ base.loads :=
  ⟨.found base .signal _ _ _ .length 0 (by decide +kernel), by decide +kernel, by decide +kernel⟩

/-- JunctionCommandsLeaveTheRest: the commands of J1 on a settled link, one with a transmitter at rest. -/
theorem test_w_junction_commands :
    OfJunction 1 update10650 ∧ OfJunction 1 (.ack 1 17 true) ∧ OfJunction 1 (.windowDeadline 1) ∧ base.stall = none ∧ base.linkSettled ∧
      (idleLink base).linkSettled :=
  ⟨.phaseStatus _ rfl, .ack _ _, .windowDeadline, rfl, by decide, by decide⟩

/-- ConfigurationStaysSound, ConfigurationStaysInRange: a state that meets the invariants and steps on, with a commit running. -/
theorem test_w_config_sound :
    ({ base with commit := some testImage } : State).configSound ∧ ({ base with commit := some testImage } : State).configInRange :=
  have h : testImage.sound := by decide +kernel
  have h' : testImage.inRange := by decide +kernel
  have d : builtInDefaults.sound := by decide +kernel
  have d' : builtInDefaults.inRange := by decide +kernel
  ⟨⟨h, fun _ e => Option.some.inj e ▸ h, fun _ => d⟩, ⟨h', fun _ e => Option.some.inj e ▸ h', fun _ => d'⟩⟩

/-- ConfigurationStaysSound: a JUNCTION write that takes J1 away while A2 names it; switching on an approach without a junction. -/
theorem test_w_inconsistent :
    base.marker = false ∧ fitsTable (.junction 0 4) = true ∧
      checkWrite { index := 1, values := .junction 0 4 } = some (.junction 1 { present := false, phaseCount := 4 }) ∧
      (base.lock && lockBars base.image (.junction 1 { present := false, phaseCount := 4 })) = false ∧
      (applyWrite base.image (.junction 1 { present := false, phaseCount := 4 })).consistent = false ∧
      (List.replicate 16 1).length = groupSize 0 ∧
      (writeGroup base.image.enables 0 (List.replicate 16 1)).map (fun x => ({ base.image with enables := x } : Image).consistent) = some false := by
  decide +kernel

/-- QueuesStayWithinBounds, IdleTransmitterHasNothingToSend, TracksStayInTheirSets: both sides of an idle and a busy transmitter, a full busy list, and a table
with a track. -/
theorem test_w_invariants :
    base.withinBounds ∧ base.linkSettled ∧ (idleLink base).linkSettled ∧
      ({ base with busyList := List.replicate 4 { kind := 1, number := 2 } } : State).withinBounds := by
  decide +kernel

theorem onlyBus (b u : Track) (p : Place) (h : (withBus b base).track p = some u) : p = place39 ∧ u = b := by
  have hall : ∀ (k : SetNo) (w : Way), base.track { set := k, way := w } = none := by
    intro k w
    cases w <;> revert k <;> decide +kernel
  by_cases hq : place39 = p
  · rw [← hq, withBus, State.putTrack_track_same] at h
    exact ⟨hq.symm, (Option.some.inj h).symm⟩
  · rw [withBus, State.putTrack_track_other _ _ _ _ hq, hall p.set p.way] at h
    cases h

/-- TracksStayInTheirSets: a table with a listed track that is pinned. -/
theorem test_w_table_placed :
    let b : Track := { bus39 with listed := some 1, pinned := true }
    (withBus b base).tablePlaced ∧ (withBus b base).pinsListed := by
  refine ⟨⟨fun k w u h => ?_, fun _ _ h => by cases h⟩, fun p u h hl => ?_⟩
  · obtain ⟨hp, rfl⟩ := onlyBus _ _ _ h
    rw [hp]
    decide +kernel
  · obtain ⟨-, rfl⟩ := onlyBus _ _ _ h
    cases hl

/-- FrozenUntilCleared: J1 frozen, with no pending order and with a CANCEL pending; a JUNCTION write that keeps J1, and one that takes another away, are covered. -/
theorem test_w_frozen :
    (unitAt 10680 fun x => { x with state := .frozen }).frozenQuiet 1 ∧
      (unitAt 10680 fun x => { x with state := .frozen, pendingOrder := some { order := .cancel, ofGrant := false } }).frozenQuiet 1 := by
  decide +kernel

/-- FrozenUntilCleared: a JUNCTION write that keeps J1, and one that takes another away. -/
theorem test_w_frozen_writes :
    let w (i present : Nat) : Instr := .writeConfig { number := 1, body := some { index := i, values := .junction present 2 } }
    (∀ number count, ¬ Runs (w 1 1) (.writeConfig { number := number, body := some { index := 1, values := .junction 0 count } })) ∧
      ∀ number count, ¬ Runs (w 0 0) (.writeConfig { number := number, body := some { index := 1, values := .junction 0 count } }) := by
  refine ⟨fun _ _ h => ?_, fun _ _ h => ?_⟩ <;> cases h with
    | found _ _ _ _ _ abandons => cases abandons

/-- ReceiveOfEncodeIsTheCommand: a command with a frame on each of the four ports, the supervisor's with an empty and a full body. -/
theorem test_w_encode :
    (Instr.restart { number := 255, body := some () }).wf = true ∧ (encodeFrame (.restart { number := 255, body := some () })).isSome = true ∧
      (Instr.ack 255 255 true).wf = true ∧ (encodeFrame (.ack 255 255 true)).isSome = true ∧
      (Instr.handOnArrival { vehicle := 65535, route := 0, deviation := -32768, entry := 255 }).wf = true ∧
      (encodeFrame (.handOnArrival { vehicle := 65535, route := 0, deviation := -32768, entry := 255 })).isSome = true ∧
      (encodeFrame (.radioReport (.report 39 2 .passed))).isSome = true := by
  decide +kernel

/-- FramesBeginAndEnd: a hunting receiver; one in frame whose time is due, and just not due; orders and hand-ons that wait, and none. -/
theorem test_w_frame_level :
    base.receivers.at .radio = none ∧
      ({ base with receivers := { hunting with radio := some 9995 } } : State).receivers.at .radio = some 9995 ∧
      base.due (some (after 9995 5)) = true ∧ base.due (some (after 9996 5)) = false ∧ base.signalWaiting = [] ∧ base.corridorWaiting = [] ∧
      ({ base with signalWaiting := [{ junction := 0, tag := 0, order := .cancel }] } : State).signalWaiting ≠ [] ∧
      ({ base with corridorWaiting := [{ vehicle := 1, route := 1, entry := 0, deviation := 0 }] } : State).corridorWaiting ≠ [] := by
  decide +kernel

/-- FramesBeginAndEnd: the commands that abandon a frame, bytes without a marker, and behind one: too few for a length, lengths of 0, 1, 1024 and 1025 (the two in range
not complete), a frame one byte short, one with another check word, and a whole frame whose last byte came 5 ds after its marker, and 6; a marker that is 4 ds old, and 5. -/
theorem test_w_abandons :
    (let s : State := { base with receivers := { hunting with radio := some 9995 } }
     ∀ l : List HeardByte, Abandons s .signal l (.abandonedFrame .signal (.length l)) ∧ Abandons s .signal l (.abandonedFrame .signal (.checkWord l)) ∧
      Abandons s .radio l (.radioReport (.unfit l)) ∧ Abandons s .radio l (.frameTimeout { port := .radio, bytes := l })) ∧
      (∀ b ∈ heardTogether [0x00, 0xC2], b.byte ≠ 0xC3) ∧ 4 < 5 ∧ 5 ≤ 5 ∧ (heardTogether [0x00]).length < 2 ∧
      num2 0 0 = 0 ∧ num2 0 1 = 1 ∧ num2 4 0 = 1024 ∧ num2 4 1 = 1025 ∧ ([] : List Byte).length < 1 + 2 ∧
      (let x : List Byte := [0x22, 0x01, 0x32, 0x00]
       num2 0x00 0x03 + 1 = x.length ∧ 3 + 2 = (x ++ [0x00]).length ∧
         ((x ++ [0x00]).drop 3).take 2 ≠ byte2 (crc (0x00 :: 0x03 :: (x ++ [0x00]).take 3)).toNat) ∧
      (Instr.occupancy 1 50).wf = true ∧ ((encodeFrame (.occupancy 1 50)).map (·.1)) = some .signal ∧
      ((swallowed 5 0 []).tail.getLast?.map (·.age)) = some 0 ∧ ((swallowed 5 0 []).tail.map (·.byte)) = ((encodeFrame (.occupancy 1 50)).map (·.2)).getD [] ∧
      5 ≤ 0 + 5 ∧ 0 + 5 < 6 := by
  refine ⟨fun l => ⟨.length, .checkWord, .report rfl, .late 9995 rfl (by decide)⟩, ?_⟩
  decide +kernel

/-- R186: a frame found 5 ds after its marker is handed on, and one found later is gone through itself; a marker among the bytes behind it puts the receiver in frame. -/
theorem test_found_in_time :
    (result (.abandonedFrame .signal (.checkWord (swallowed 5 0 []))) base).loads = (result (.occupancy 1 50) base).loads ∧
      (result (.abandonedFrame .signal (.checkWord (swallowed 6 0 []))) base).loads = base.loads ∧
      (result (.abandonedFrame .signal (.checkWord (swallowed 6 0 [{ byte := 0xC3, age := 4 }, { byte := 0x00, age := 4 }]))) base).receivers =
        { hunting with signal := some 9996 } := by
  decide +kernel

/-- BusyAndMisfitRequestsChangeNothing: a request in progress on a settled link, and a misfit and an unknown request with none in progress. -/
theorem test_w_requests :
    requestOf (.readSet { number := 7, body := some 3 }) = some (0x03, 7, true) ∧ ({ base with marker := true } : State).marker = true ∧
      ({ base with marker := true } : State).linkSettled ∧ requestOf (.readSet { number := 7, body := none }) = some (0x03, 7, false) ∧
      requestOf (.unknownRequest 0x15 7) = some (0x15, 7, false) ∧ base.marker = false := by
  decide +kernel

def slotReply (ahead : Nat) : SlotReply := { reply := { kind := 1, number := 2, result := .ok, body := .empty }, ahead := ahead }

def someNotice : Notice := { number := 4, body := .commitDone true }

/-- TransmitterPrefersAnswers: a frame in transmission, with a reply first, a BUSY answer first (with and without a reply behind), a notice, and nothing to send. -/
theorem test_w_transmitter :
    base.supervisorFrame.isSome = true ∧ (slotReply 0).ahead = 0 ∧ base.busyList = [] ∧ (slotReply 1).ahead ≠ 0 ∧
      ({ base with busyList := [{ kind := 1, number := 2 }], replySlot := some (slotReply 1) } : State).busyList ≠ [] ∧ base.stall = none ∧
      base.replySlot = none ∧ base.noticeQueue = [] ∧ ({ base with noticeQueue := [someNotice] } : State).noticeQueue = [someNotice] := by
  decide +kernel

/-- TrackTableReads: a track that is found, a vehicle that is not, the last set and the number after it. -/
theorem test_w_table_reads :
    base.marker = false ∧ (withBus bus39 base).track (placeOf 39 .a) = some bus39 ∧ bus39.vehicle = 39 ∧
      (∀ w : Way, (withBus bus39 base).track (placeOf 40 w) = none) ∧ (32 ≤ 32) :=
  ⟨rfl, by decide +kernel, rfl, by intro w; cases w <;> decide +kernel, le_refl _⟩

/-- ReadsShowTheStateAsItStands: the last entry of a table and the index after it, a present and an absent junction. -/
theorem test_w_reads :
    base.marker = false ∧ base.image.read .reach 127 = some (.reach defaultReach) ∧ tableSize .reach ≤ 128 ∧ base.present 1 = true ∧
      base.present 0 = false := by
  decide +kernel

/-- ReportsAreCheckedAndPlaced: a valid report; slot 0 EMPTY; slot 0 FULL and the other slots INACTIVE; every slot INACTIVE; numbers at the ends of their
ranges, and just beyond. -/
theorem test_w_placement :
    validVehicle 65534 = true ∧ validVehicle 1 = true ∧ validBody (.checkIn 4095 0 0 none) = true ∧ (reportOf .passed 10000).stamp = base.clock ∧
      (base.slots.get 0).admits (reportOf .passed 10000) = true ∧ base.hold ≠ some 0 ∧ (base.slots.get 0).code = .empty ∧
      (let replaced : Slot := { coldSlot with code := .overrun, report := some (reportOf .passed 9999) }
       let s : State := { base with slots := (Vector.replicate 16 { coldSlot with code := .inactive }).set 0 replaced }
       (∀ k, ¬ ((s.slots.get k).admits (reportOf .passed 10000) = true ∧ (s.slots.get k).code = .empty)) ∧
         (s.slots.get 0).admits (reportOf .passed 10000) = true ∧ (s.slots.get 0).code = .overrun) ∧
      (let s : State := { base with slots := Vector.replicate 16 { coldSlot with code := .inactive } }
       ∀ k, (s.slots.get k).admits (reportOf .passed 10000) = false) ∧
      validBody (.checkIn 4096 0 0 none) = false ∧ validBody (.stopArrive 8 none) = false := by
  decide +kernel

/-- A report of slot 3 that is older than the one of slot 0. -/
def twoReports : State :=
  { waiting (reportOf .passed 10000) base with
    slots := (waiting (reportOf .passed 10000) base).slots.set 3 { coldSlot with code := .overrun, report := some (reportOf .passed 9990) } }

def byAge (s : State) : State := { s with image := { s.image with parameters := s.image.parameters.set 19 1 } }

/-- TakeEmptiesTheChosenSlot: slot order names slot 0, and age order slot 3. -/
theorem test_w_take :
    twoReports.stall = none ∧ twoReports.corridorQueue = [] ∧ twoReports.takeable 0 = true ∧ twoReports.image.intakeByAge = false ∧
      (∀ k : SlotNo, k < 0 → twoReports.takeable k = false) ∧ (byAge twoReports).takeable 3 = true ∧ (byAge twoReports).image.intakeByAge = true ∧
      (∀ k : SlotNo, k ≠ 3 → (byAge twoReports).takeable k = true →
        earlier ((byAge twoReports).slotStamp 3) ((byAge twoReports).slotStamp k) = true) := by
  decide +kernel

/-- HoldAndReleaseMoveTheHold, SlotWritesDiscardTheReport: another slot with a report, numbers and codes just beyond their ranges. -/
theorem test_w_slots :
    base.marker = false ∧ (15 : SlotNo) ≠ 3 ∧ (twoReports.slots.get 3).holds = true ∧ 16 ≤ 16 ∧ (SlotCode.inactive = .inactive) ∧
      (List.replicate 16 1).length = 16 ∧ (List.replicate 6 0).length = 6 ∧ 2 ≤ 2 := by
  decide +kernel

def handOn39 : HandOn := { vehicle := 39, route := 12, deviation := 600, entry := 0, stamp := 10000 }

/-- Entry 0 leads to A2, with a link time of 100. -/
def entryBound (s : State) : State :=
  { s with image := { s.image with entries := s.image.entries.set 0 { approach := some 2, linkTime := 100 } }, corridorQueue := [handOn39] }

/-- HandOnsWaitAndUpdateTracks, HandOnsMakeExpectedTracks: valid numbers, a full queue and the ends of the ranges; an entry without an approach; a hit on a track that
is EXPECTED and on one that is not, a deadline not yet due; a miss on a placed route with a way free, and on a route that none places. -/
theorem test_w_hand_ons :
    validVehicle 39 = true ∧ validRoute 4095 = true ∧ base.corridorQueue.length < 4 ∧
      4 ≤ ({ base with corridorQueue := List.replicate 4 handOn39 } : State).corridorQueue.length ∧
      (base.image.entries.get 0).approach = none ∧ (entryBound base).stall = none ∧ (entryBound base).linkSettled ∧
      ((entryBound base).image.entries.get 0).approach ≠ none ∧ (withBus bus39 (entryBound base)).lookup 39 = some place39 ∧
      bus39.state ≠ .expected ∧ ({ bus39 with state := .expected, approach := none } : Track).state = .expected ∧
      (entryBound base).due (some (after 10000 (100 + (entryBound base).image.expectMargin))) = false ∧
      (entryBound base).lookup 39 = none ∧ (entryBound base).image.placeRoute 12 = some 0 ∧
      ((entryBound base).sets.get (placeOf 39 .a).set).a = none ∧
      ({ testImage with routes := .replicate 16 retiredRoute } : Image).placeRoute 12 = none := by
  decide +kernel

/-- ReachHoldsItsDistance: the three reaches of §4.10, at a boundary and at both ends. -/
theorem test_w_reach :
    (∀ r ∈ testImage.reachesInUse 2, 1 ≤ r.length) ∧ (1 ≤ 1 ∧ 1 ≤ boundary (testImage.reachesInUse 2) 0) ∧
      boundary (testImage.reachesInUse 2) 0 = 800 ∧ reachAt 400 (testImage.reachesInUse 2) = 1 := by
  decide +kernel

def position39 : State := withBus bus39 (waiting (reportOf (.position 620 60 (some 60)) 10000) base)

/-- PositionUpdatesItsTrack: the report of §4.10, and its distance within the reversal tolerance to the metre. -/
theorem test_w_position :
    position39.stall = none ∧ position39.corridorQueue = [] ∧ position39.chosenSlot = some 0 ∧
      (position39.slots.get 0).report = some (reportOf (.position 620 60 (some 60)) 10000) ∧ position39.image.enabled 2 = true ∧
      position39.lookup 39 = some place39 ∧ position39.track place39 = some bus39 ∧ bus39.state = .approaching ∧ bus39.approach = some 2 ∧
      bus39.referralOpen = false ∧ earlier 10000 9990 = false ∧ 1 ≤ 620 ∧ 620 ≤ boundary (position39.image.reachesInUse 2) 0 ∧
      620 ≤ bus39.distance + position39.image.reversalTolerance ∧ 800 ≤ bus39.distance + position39.image.reversalTolerance ∧
      (predictTimes (position39.image.reachesInUse 2) 2 { lastDeparted := none, dwellStop := none, stopArrive := none } none none 620 60 10000).delta ≤
        position39.image.horizon ∧
      position39.due (some (after 10000 position39.image.staleTime)) = false := by
  decide +kernel

/-- A2 with exit target 3. -/
def exits (s : State) : State :=
  let a2 : ApproachEntry := { junction := some 1, busPhase := 2, reachCount := 3, trust := 2, exitTarget := some 3, secondaryLimit := 1 }
  { s with image := { s.image with approaches := s.image.approaches.set 2 a2 } }

def passed39 : State := exits (withBus bus39 (waiting (reportOf .passed 10000) base))

/-- PassageClearsItsTrack: with an exit target on an idle corridor transmitter, and without one. -/
theorem test_w_passage :
    passed39.stall = none ∧ passed39.corridorQueue = [] ∧ passed39.chosenSlot = some 0 ∧
      (passed39.slots.get 0).report = some (reportOf .passed 10000) ∧ passed39.image.enabled 2 = true ∧ passed39.lookup 39 = some place39 ∧
      passed39.track place39 = some bus39 ∧ (passed39.image.approach 2).junction = some 1 ∧ (passed39.image.approach 2).exitTarget = some 3 ∧
      passed39.corridorFrame = none ∧ (testImage.approach 2).exitTarget = none ∧
      passed39.due (some (after 10000 passed39.image.staleTime)) = false := by
  decide +kernel

def record39 : Journey :=
  { vehicle := 39, route := 12, junction := 1, approach := 2, firstListed := none, firstEta := none, lastEta := 10900, passTime := 9990,
    action := .none, borrowed := 0, cls := .onTime }

def cleared39 (stale : Clock) : Track := { bus39 with state := .cleared, distance := 0, eta := none, journey := some record39, staleDeadline := some stale }

def fullQueue (s : State) : State := { s with noticeQueue := List.replicate 16 someNotice }

/-- ExpiriesInvalidateOrStall: a stale deadline at its clock, without a record, with a record and room, and with a record and a full queue; an expect deadline; a deadline
one tick away. -/
theorem test_w_expiries :
    base.stall = none ∧ base.linkSettled ∧ base.due (some 10000) = true ∧ base.due (some 10001) = false ∧
      (withBus { bus39 with staleDeadline := some 10000 } base).track place39 = some { bus39 with staleDeadline := some 10000 } ∧
      bus39.journey = none ∧ base.noticeQueue.length < 16 ∧ (fullQueue (withBus (cleared39 10000) base)).track place39 = some (cleared39 10000) ∧
      (cleared39 10000).journey = some record39 ∧ 16 ≤ (fullQueue base).noticeQueue.length ∧
      (withBus { bus39 with state := .expected, approach := none, expectDeadline := some 10000 } base).track place39 =
        some { bus39 with state := .expected, approach := none, expectDeadline := some 10000 } := by
  decide +kernel

def stall39 (limit : Clock) : Stall := { place := place39, work := .invalidate .stale, limit := limit, number := 9 }

def stalled (limit : Clock) : State := { fullQueue (withBus (cleared39 9980) base) with stall := some (stall39 limit) }

/-- StallsEndByRoomOrLimit: a stall at its limit and one tick before; a frame in transmission whose end makes room. -/
theorem test_w_stall :
    (stalled 10000).stall = some (stall39 10000) ∧ (stalled 10000).due (some 10000) = true ∧ (stalled 10001).due (some 10001) = false ∧
      (stall39 10000).work = .invalidate .stale ∧ (stalled 10000).waiting = [] ∧ base.stall = none ∧ (stalled 10001).supervisorFrame.isSome = true ∧
      (stalled 10001).replySlot = none ∧ (stalled 10001).busyList = [] ∧
      (stalled 10001).noticeQueue = someNotice :: List.replicate 15 someNotice ∧ (List.replicate 15 someNotice).length < 16 ∧
      (stalled 10001).track place39 = some (cleared39 9980) ∧ (cleared39 9980).journey = some record39 := by
  decide +kernel

def dwelling39 : Track :=
  { bus39 with state := .dwelling, distance := 150, dwellStop := some 1, stopArrive := some 8200, dwellDeadline := some 10000 }

def referring (s : State) : State :=
  { s with image := { s.image with enables := { s.image.enables with referral := .replicate 5 true } } }

/-- DwellExpiryRaisesItsAnomaly: a dwell at its deadline, the class referable and not. -/
theorem test_w_dwell :
    (withBus dwelling39 base).stall = none ∧ (withBus dwelling39 base).track place39 = some dwelling39 ∧ base.due (some 10000) = true ∧
      (referring (withBus dwelling39 base)).image.enables.referral.get 3 = true ∧ base.referral = none ∧
      base.image.enables.referral.get 3 = false := by
  decide +kernel

/-- OpenReferralSupersedesReports: the track of the report has its referral open, its count at the end of its range. -/
theorem test_w_superseded :
    let t : Track := { bus39 with referralOpen := true, superseded := 255 }
    let s := withBus t (waiting (reportOf .passed 10000) base)
    s.stall = none ∧ s.linkSettled ∧ s.corridorQueue = [] ∧ s.chosenSlot = some 0 ∧ s.image.enabled 2 = true ∧ s.lookup 39 = some place39 ∧
      s.track place39 = some t ∧ t.referralOpen = true := by
  decide +kernel

/-- No route is placed. -/
def unplaced (s : State) : State := { s with image := { s.image with routes := .replicate 16 retiredRoute } }

/-- UnplacedCheckInIsReferred. -/
theorem test_w_unplaced :
    let s := unplaced (waiting (reportOf (.checkIn 12 620 60 none) 10000) base)
    s.stall = none ∧ s.linkSettled ∧ s.corridorQueue = [] ∧ s.chosenSlot = some 0 ∧ s.image.enabled 2 = true ∧ s.lookup 39 = none ∧
      s.image.placeRoute 12 = none ∧ s.referral = none := by
  decide +kernel

def referral39 (deadline : Clock) : Referral :=
  { cls := .unplaced, vehicle := 39, place := .approach 2, held := .report (reportOf (.checkIn 12 620 60 none) 9950) true none,
    figures := .unplaced 12, opening := 9950, deadline := deadline, superseded := 0 }

/-- RulingsCloseReferrals, ReferralDeadlineAppliesTheDefault: no referral, one of another class or vehicle, and one of the vehicle, at its deadline and one tick before. -/
theorem test_w_referral :
    base.marker = false ∧ base.referral = none ∧ ({ base with referral := some (referral39 10000) } : State).referral = some (referral39 10000) ∧
      (anomalyIndex (referral39 10000).cls).val = 5 ∧ (anomalyIndex (referral39 10000).cls).val ≠ 0 ∧ (referral39 10000).vehicle ≠ 40 ∧
      base.due (some (referral39 10000).deadline) = true ∧ base.due (some (referral39 10001).deadline) = false ∧ base.stall = none ∧ base.linkSettled := by
  decide +kernel

/-- WritesReplaceTheirEntry: a misfit, a coded field and an index beyond their values, an accepted PHASE write and an accepted APPROACH write. -/
theorem test_w_writes :
    fitsTable (.enables [] [] [] []) = false ∧ fitsTable (.gate 2 0 0 2) = true ∧ checkWrite { index := 0, values := .gate 2 0 0 2 } = none ∧
      checkWrite { index := 4, values := .gate 0 0 0 2 } = none ∧
      checkWrite { index := 31, values := .phase 200 250 50 0 0 } =
        some (.phase 31 { split := 200, minGreen := 200, clearance := 50, maxExtension := 0, guarded := false }) ∧
      (applyWrite base.image (.phase 31 (clampPhase 200 250 50 0 false))).consistent = true ∧
      (applyWrite base.image (.approach 2 { testImage.approach 2 with busPhase := 3 })).consistent = true ∧
      (base.lock && lockBars base.image (.phase 31 (clampPhase 200 250 50 0 false))) = false := by
  decide +kernel

/-- ThresholdsAreOrdered: a sound image, and a level whose threshold is 101. -/
theorem test_w_thresholds :
    base.marker = false ∧ base.image.consistent = true ∧ (15 = 15 ∨ 15 = 16 ∨ 15 = 17) ∧
      (applyWrite builtInDefaults (.parameter 15 100)).threshold .hi = 101 ∧ 100 ≤ 100 := by
  decide +kernel

/-- EnablesAreWrittenByGroup: a group beyond the four, another number of switches, a group that turns no approach off. -/
theorem test_w_enables :
    base.marker = false ∧ 4 ≤ 4 ∧ ([] : List Nat).length ≠ groupSize 3 ∧ base.image.consistent = true ∧
      ({ base.image with enables := { base.image.enables with approach := (Vector.replicate 16 false).set 2 true } } : Image).consistent = true ∧
      (∀ a : ApproachNo, base.image.enables.approach.get a = true → ((Vector.replicate 16 false).set 2 true).get a = true) := by
  decide +kernel

/-- MirrorsAreFreshForThirty: the last phase of the ring and the one after it, an absent junction, a deadline at its clock and one tick before. -/
theorem test_w_mirror :
    base.present 1 = true ∧ (3 : PhaseNo).val < (base.image.junction 1).phaseCount ∧ (base.image.junction 1).phaseCount ≤ 4 ∧ base.present 0 = false ∧
      base.stall = none ∧ base.linkSettled ∧
      (unitAt 10000 fun x => { x with staleDeadline := some 10000 }).due ((unitAt 10000 fun x => { x with staleDeadline := some 10000 }).junction 1).staleDeadline =
        true ∧
      (unitAt 10000 fun x => { x with staleDeadline := some 10001 }).due ((unitAt 10000 fun x => { x with staleDeadline := some 10001 }).junction 1).staleDeadline =
        false := by
  decide +kernel

/-- The conditions on the junction, the list and the entry that EvaluationsBeginGrants names. -/
def evaluates (s : State) (j : JunctionNo) (q : PhaseNo) (x : Entry) : Prop :=
  s.stall = none ∧ s.linkSettled ∧ s.present j = true ∧ q.val < (s.image.junction j).phaseCount ∧ (s.junction j).state = .idle ∧
    (s.junction j).carry = none ∧ (s.junction j).grant = none ∧ (s.junction j).outstanding = none ∧ (s.junction j).list = [x] ∧
    claimsGrant x = false ∧ gateAdmits (s.junction j).gate x.tier = true ∧ s.tierFloor j ≤ x.tier ∧
    ((s.reliability.get x.approach).tagged = false ∨ x.confirmed = true) ∧ x.suspended = false ∧ x.referred = false ∧ later x.eta s.clock = true

/-- EvaluationsBeginGrants, the extension: the case of §6.9 at 10650, and one whose amount is the whole maximum extension. -/
theorem test_w_extend :
    evaluates (unitAt 10650 idle39) 1 2 entry39 ∧ later (10650 - BitVec.ofNat 32 0) entry39.eta = false ∧
      atOrAfter (after 10650 200) (after entry39.eta 30) = false ∧ elapsed (after entry39.eta 30) (after 10650 200) = 63 ∧
      63 ≤ (testImage.phase 1 2).maxExtension ∧ 63 ≤ (unitAt 10650 idle39).budgetLeft 1 ∧ elapsed (after 10970 30) (after 10650 200) = 150 := by
  unfold evaluates
  decide +kernel

/-- EvaluationsBeginGrants, the plan serves: the ETA and its margin end with the green. -/
theorem test_w_served :
    evaluates (unitAt 10650 fun x => { x with list := [{ entry39 with eta := 10820 }] }) 1 2 { entry39 with eta := 10820 } ∧
      atOrAfter (after 10650 200) (after 10820 30) = true := by
  unfold evaluates
  decide +kernel

/-- J1 as a ring of two, A2 on its phase P1. -/
def ringOfTwo (f : Junction → Junction) : State :=
  { unitAt 10000 f with image := { testImage with
      junctions := testImage.junctions.set 1 { present := true, phaseCount := 2 }
      phases := testImage.phases.set 9 { split := 300, minGreen := 100, clearance := 50, maxExtension := 0, guarded := false }
      approaches := testImage.approaches.set 2
        { junction := some 1, busPhase := 1, reachCount := 3, trust := 2, exitTarget := none, secondaryLimit := 1 } } }

def early39 : Entry := { entry39 with busPhase := 1, eta := 10200 }

/-- EvaluationsBeginGrants, the early green: P0 green for 250 more, its minimum served; the bus comes 100 before its own green at 10300. -/
theorem test_w_early :
    evaluates (ringOfTwo fun x => { x with list := [early39] }) 1 0 early39 ∧
      ((ringOfTwo id).image.junction 1).phaseCount = 2 ∧ ((ringOfTwo id).image.phase 1 0).guarded = false ∧
      later (after 10000 (250 + ((ringOfTwo id).image.phase 1 0).clearance)) early39.eta = true ∧
      min (min (250 - (((ringOfTwo id).image.phase 1 0).minGreen - 150)) (elapsed (after 10000 300) early39.eta)) ((ringOfTwo id).budgetLeft 1) = 100 ∧
      (ringOfTwo id).image.minimumCut ≤ 100 := by
  unfold evaluates
  decide +kernel

def ordering (now : Clock) : State := withBus { bus39 with eta := some 10883, tier := 2, pinned := true, listed := some 1 } (unitAt now ordering39)

/-- AcceptedOrdersAreCharged: the extension of §6.9, its holder tracked, with its start notice due and enabled; under a stale mirror; and an EARLY. -/
theorem test_w_charge :
    (ordering 10652).stall = none ∧ (ordering 10652).linkSettled ∧ (ordering 10652).present 1 = true ∧
      ((ordering 10652).junction 1).outstanding = some extend39 ∧ extend39.ofGrant = true ∧ ((ordering 10652).junction 1).grant = some grant39 ∧
      grant39.ending = none ∧ ((ordering 10652).junction 1).pendingOrder = none ∧ extend39.order = .extend 2 63 ∧ grant39.startDue = true ∧
      (ordering 10652).image.enables.grantNotice.get 1 = true ∧ grant39.candidate = none ∧ grant39.holder = some grant39.lastHolder ∧
      ((ordering 10652).track (placeOf 39 .a)).map (fun u => (u.vehicle, u.state)) = some (39, .approaching) ∧
      ((unitAt 10652 fun x => { ordering39 x with stale := true }).junction 1).stale = true ∧
      ((unitAt 10652 fun x => { ordering39 x with
          outstanding := some { extend39 with order := .early 2 [(0, 100)] } }).junction 1).outstanding.map (·.order) = some (.early 2 [(0, 100)]) := by
  decide +kernel

/-- AcceptedClosesEndTheGrant: the RELEASE of §6.9 with recovery to come; a CANCEL of an uncharged grant, with none, under a stale mirror. -/
theorem test_w_close :
    (unitAt 10895 closing39).stall = none ∧ (unitAt 10895 closing39).linkSettled ∧ (unitAt 10895 closing39).present 1 = true ∧
      ((unitAt 10895 closing39).junction 1).outstanding = some release39 ∧ release39.ofGrant = true ∧ release39.order = .release 2 ∧
      ((unitAt 10895 closing39).junction 1).grant.map (·.ending) = some (some .passed) ∧
      ((unitAt 10895 closing39).junction 1).pendingOrder = none ∧ (unitAt 10895 closing39).image.enables.grantNotice.get 1 = true ∧
      max (unitAt 10895 closing39).image.recoveryMinimum ((45 * (unitAt 10895 closing39).image.recoveryRatio + 3) / 4) = 45 ∧
      ((unitAt 10895 fun x => { closing39 x with
          outstanding := some { release39 with order := .cancel }, grant := some { grant39 with closing := true, ending := some .withdrawn },
          stale := true }).junction 1).stale = true ∧
      grant39.extensionCharged = 0 := by
  decide +kernel

/-- FaultsFreezeTheJunction: an order to refuse, to time out at its deadline and one tick before; a tag that matches nothing, with and without an order; no order; an
absent junction. -/
theorem test_w_faults :
    (ordering 10670).stall = none ∧ (ordering 10670).linkSettled ∧ ((ordering 10670).junction 1).outstanding = some extend39 ∧
      (ordering 10670).present 1 = true ∧ (ordering 10670).due (some extend39.deadline) = true ∧ (ordering 10669).due (some extend39.deadline) = false ∧
      extend39.tag ≠ 16 ∧ (16 : Tag) ∉ ((ordering 10670).junction 1).discard ∧ ((ordering 10670).junction 1).abandoned = none ∧
      (base.junction 1).outstanding = none ∧ base.present 0 = false ∧ ((ordering 10670).junction 1).grant = some grant39 ∧
      ((unitAt 10670 fun x => { x with state := .frozen }).junction 1).state = .frozen := by
  decide +kernel

/-- RecoveryAndWindowsEnd: a recovery and a window at their deadlines and one tick before, the mirror stale. -/
theorem test_w_deadlines :
    let s := unitAt 10940 fun x => { x with state := .recovery, recoveryDeadline := some 10940, windowDeadline := 10940 }
    let r := unitAt 10939 fun x => { x with state := .recovery, recoveryDeadline := some 10940, windowDeadline := 10940 }
    s.stall = none ∧ s.linkSettled ∧ (s.junction 1).recoveryDeadline = some 10940 ∧ s.due (some 10940) = true ∧ (s.junction 1).state = .recovery ∧
      (s.junction 1).stale = true ∧ r.due (r.junction 1).recoveryDeadline = false ∧ s.due (some (s.junction 1).windowDeadline) = true ∧
      r.due (some (r.junction 1).windowDeadline) = false := by
  decide +kernel

/-- SetGateWritesOrDefers: a saved copy, and none with a stale mirror and an entry that claims no grant. -/
theorem test_w_set_gate :
    base.marker = false ∧ ((ordering 10652).junction 1).saved ≠ none ∧ (base.junction 1).saved = none ∧ (base.junction 1).stale = true ∧
      claimsGrant entry39 = false ∧ 4 ≤ 4 ∧ 2 ≤ 2 := by
  decide +kernel

/-- ClearFaultThaws: a fault that remains, and none on a FROZEN junction with a stale mirror; numbers just beyond. -/
theorem test_w_clear_fault :
    let s := unitAt 10680 fun x => { x with state := .frozen, faults := { refused := true, noAck := true, badAck := false } }
    s.marker = false ∧
      ({ refused := (s.junction 1).faults.refused && !([FaultKind.noAck].contains .refused),
         noAck := (s.junction 1).faults.noAck && !([FaultKind.noAck].contains .noAck),
         badAck := (s.junction 1).faults.badAck && !([FaultKind.noAck].contains .badAck) } : FaultFlags) ≠ noFaults ∧
      ({ refused := (s.junction 1).faults.refused && !([FaultKind.noAck, .refused].contains .refused),
         noAck := (s.junction 1).faults.noAck && !([FaultKind.noAck, .refused].contains .noAck),
         badAck := (s.junction 1).faults.badAck && !([FaultKind.noAck, .refused].contains .badAck) } : FaultFlags) = noFaults ∧
      (s.junction 1).state = .frozen ∧ (s.junction 1).stale = true ∧ 3 ∈ [3] := by
  decide +kernel

/-- JunctionsAreCleared, RestartKeepsTheImage, ClearFlagsClearsTheNamed, StatusRead, CommitTakesASnapshot: no request in progress; a junction with a grant. -/
theorem test_w_marker : base.marker = false ∧ (ordering 10652).marker = false ∧ ((ordering 10652).junction 1).state = .ordering := by
  decide +kernel

/-- LoadsFollowTheirSamples: a present junction with and without an averaging deadline, a rise that is noticed, the deadline at its clock and one tick before, an absent
junction. -/
theorem test_w_loads :
    let s : State := { base with averagingDeadline := none }
    let n : State := { s with image := { s.image with enables := { s.image.enables with levelNotice := .replicate 3 true } } }
    base.stall = none ∧ base.linkSettled ∧ base.present 1 = true ∧ ({ base with averagingDeadline := some 10000 } : State).averagingDeadline = some 10000 ∧
      s.averagingDeadline = none ∧ levelIndex (n.load 1).level < levelIndex (comparedLoad n.image { n.load 1 with average := 80 }).level ∧
      n.image.levelNotice (comparedLoad n.image { n.load 1 with average := 80 }).level = true ∧ base.present 0 = false ∧
      base.due (some 10000) = true ∧ base.due (some 10001) = false ∧ risenLevel testImage .normal 40 = some .lo ∧
      risenLevel testImage .normal 39 = none := by
  decide +kernel

def tagged2 (s : State) : State := { s with reliability := s.reliability.set 2 { restReliability with tagged := true } }

/-- CallsConfirmOneEntry: an absent junction; a call without presence, beyond A15, of an untagged approach; a call for an entry listed one tick before, after one of the
same approach with a later ETA, and for one that is GRANTED. -/
theorem test_w_calls :
    let s := tagged2 (unitAt 10002 fun x => { x with list := [{ entry39 with vehicle := 40, eta := 10884 }, entry39] })
    base.present 0 = false ∧ base.present 1 = true ∧ (0 ≠ 1) ∧ 16 ≤ 16 ∧ (base.reliability.get 2).tagged = false ∧ s.stall = none ∧ s.linkSettled ∧
      (s.reliability.get 2).tagged = true ∧ (s.image.approach 2).junction = some 1 ∧
      (s.junction 1).list = [{ entry39 with vehicle := 40, eta := 10884 }] ++ entry39 :: [] ∧ entry39.approach = 2 ∧ entry39.confirmed = false ∧
      earlier entry39.firstListed s.clock = true ∧ later 10884 entry39.eta = true ∧ earlier entry39.firstListed 10001 = false ∧
      claimsGrant { entry39 with state := .granted } = true := by
  decide +kernel

/-- PhantomsLeak: the leak deadline at its clock and one tick before. -/
theorem test_w_leak :
    ({ base with leakDeadline := 10000 } : State).due (some ({ base with leakDeadline := 10000 } : State).leakDeadline) = true ∧
      ({ base with leakDeadline := 10001 } : State).due (some ({ base with leakDeadline := 10001 } : State).leakDeadline) = false := by
  decide +kernel

/-- TagsAreSetAndHold: a number just beyond, a tag that stands, an approach without a junction, a change on an approach of a junction with a stale mirror. -/
theorem test_w_tags :
    base.marker = false ∧ 16 ≤ 16 ∧ ((tagged2 base).reliability.get 2).tagged = true ∧ (base.image.approach 0).junction = none ∧
      (base.reliability.get 2).tagged ≠ true ∧ (base.image.approach 2).junction = some 1 ∧ (base.junction 1).stale = true := by
  decide +kernel

/-- ColdStartLoadsTheImage, StoreWritesEndTheCommit: a stored image under the word computed over it, one that fails its check, a commit running and none. -/
theorem test_w_store :
    (StoredImage.passes { tables := testImage, word := checkWord testImage }) = true ∧
      (StoredImage.passes { tables := testImage, word := ~~~ checkWord testImage }) = false ∧ base.commit = none ∧
      ({ base with commit := some testImage } : State).commit = some testImage ∧ base.stall = none ∧ base.linkSettled := by
  simp only [StoredImage.passes]
  generalize checkWord testImage = w
  refine ⟨beq_self_eq_true _, ?_, by decide⟩
  rw [beq_eq_false_iff_ne]
  intro h
  have h0 := congrArg (fun x : BitVec 16 => x.getLsbD 0) h
  simp at h0

/-- LockBarsPhasesAndCommits: a write under the lock that changes the minimum green, one that changes the split alone, one with the lock clear; a request that is neither. -/
theorem test_w_lock :
    let old := testImage.phases.get 10
    ({ base with lock := true } : State).lock = true ∧ base.lock = false ∧ base.marker = false ∧ (clampPhase 200 90 50 150 false).minGreen ≠ old.minGreen ∧
      (let e := clampPhase 250 80 50 150 false
       e.minGreen = old.minGreen ∧ e.clearance = old.clearance ∧ e.maxExtension = old.maxExtension ∧ e.guarded = old.guarded) ∧
      base.image.consistent = true ∧ requestOf (.lockConfig { number := 1, body := some () }) = some (0x14, 1, true) := by
  decide +kernel

/-- CommitTakesASnapshot: the lock set, a commit running, neither; an entry to read meanwhile. -/
theorem test_w_commit :
    ({ base with lock := true } : State).lock = true ∧ base.lock = false ∧ ({ base with commit := some testImage } : State).commit ≠ none ∧
      base.commit = none ∧ base.image.read .parameter 22 = some (.parameter 300) := by
  decide +kernel

/-! ### Witnesses of the clauses on effects, each at a boundary of its conditions -/

/-- Set 7 with both ways valid: vehicle 71 in A and vehicle 103 in B, the age bit naming B. -/
def fullSet (pinA pinB : Bool) (f : Track → Track) (s : State) : State :=
  let of (v : Nat) (pinned : Bool) : Option Track := some (f { bus39 with vehicle := v, listed := some 1, pinned := pinned })
  { s with sets := s.sets.set 7 { a := of 71 pinA, b := of 103 pinB, age := .b } }

/-- HandOnsMakeExpectedTracks, eviction: the victim is B by the age bit, with A pinned and with both, and A with B pinned; a record that finds room, and one that finds none. -/
theorem test_w_eviction :
    let s := fullSet false false id (entryBound base)
    let way (a b : Bool) : Way := if a = true then .b else if b = true then .a else (s.sets.get 7).age
    s.stall = none ∧ s.linkSettled ∧ s.corridorQueue = [handOn39] ∧ s.lookup 39 = none ∧ s.image.placeRoute 12 = some 0 ∧
      s.track (placeOf 39 (way false false)) = some { bus39 with vehicle := 103, listed := some 1 } ∧ way true true = .b ∧ way true false = .b ∧ way false true = .a ∧
      s.due (some (after 10000 (100 + s.image.expectMargin))) = false ∧ s.noticeQueue.length < 16 ∧
      ((fullSet true true (fun t => { t with journey := some record39 }) (entryBound (fullQueue base))).track (placeOf 39 .b)).map (·.journey) = some (some record39) ∧
      16 ≤ (entryBound (fullQueue base)).noticeQueue.length := by
  decide +kernel

def checkIn39 (D : Nat) : State := waiting (reportOf (.checkIn 12 D 60 none) 10000) base

/-- HandOnsMakeExpectedTracks, the CHECK-IN: a miss on a placed route, at the far end of the approach, whose ETA is within the horizon. -/
theorem test_w_check_in :
    let s := checkIn39 800
    s.stall = none ∧ s.corridorQueue = [] ∧ s.chosenSlot = some 0 ∧ (s.slots.get 0).report = some (reportOf (.checkIn 12 800 60 none) 10000) ∧
      s.image.enabled 2 = true ∧ s.lookup 39 = none ∧ s.image.placeRoute 12 = some 0 ∧ (s.sets.get 7).a = none ∧
      boundary (s.image.reachesInUse 2) 0 = 800 ∧
      (predictTimes (s.image.reachesInUse 2) 2 { lastDeparted := none, dwellStop := none, stopArrive := none } none none 800 60 10000).delta ≤ s.image.horizon ∧
      s.due (some (after 10000 s.image.staleTime)) = false := by
  decide +kernel

/-- HandOnsMakeExpectedTracks, the CHECK-IN into a full set: the victim is B by the age bit, with A pinned and with both, and A with B pinned; a record that finds room,
and one that finds none. -/
theorem test_w_check_in_eviction :
    let s := fullSet false false id (checkIn39 800)
    let way (a b : Bool) : Way := if a = true then .b else if b = true then .a else (s.sets.get 7).age
    let full := fullSet true true (fun t => { t with journey := some record39 }) (fullQueue (checkIn39 800))
    s.picks 0 (reportOf (.checkIn 12 800 60 none) 10000) ∧ s.image.enabled 2 = true ∧ s.lookup 39 = none ∧ s.image.placeRoute 12 = some 0 ∧
      s.track (placeOf 39 (way false false)) = some { bus39 with vehicle := 103, listed := some 1 } ∧ way true true = .b ∧ way true false = .b ∧ way false true = .a ∧
      s.noticeQueue.length < 16 ∧ 16 ≤ full.noticeQueue.length ∧ full.linkSettled ∧ full.chosenSlot = some 0 ∧
      (full.track (placeOf 39 .b)).map (·.journey) = some (some record39) := by
  decide +kernel

/-- HandOnsMakeExpectedTracks: the CHECK-IN of these witnesses begins its approach well. -/
theorem test_w_begins_well : (checkIn39 800).beginsWell (reportOf (.checkIn 12 800 60 none) 10000) :=
  ⟨12, 800, 60, none, by decide +kernel⟩

/-- Report `b` of vehicle 39 waits, and its track is `t`. -/
def meets (t : Track) (b : ReportBody) : State := withBus t (waiting (reportOf b 10000) base)

/-- The hypotheses that a STOP ARRIVE and a STOP DEPART share, at stop 1 of A2, whose distance is within the reversal tolerance of the track's to the metre. -/
def stopsAt (s : State) (t : Track) (b : ReportBody) : Prop :=
  s.stall = none ∧ s.linkSettled ∧ s.corridorQueue = [] ∧ s.chosenSlot = some 0 ∧ (s.slots.get 0).report = some (reportOf b 10000) ∧
    s.image.enabled 2 = true ∧ s.lookup 39 = some place39 ∧ s.track place39 = some t ∧ (t.state = .approaching ∨ t.state = .dwelling) ∧
    t.approach = some 2 ∧ t.referralOpen = false ∧ (t.lastSeen.map (earlier 10000)) = some false ∧ s.image.isStop 2 1 = true ∧
    ((s.image.reachesInUse 2)[1]?).map (·.dwellMode) = some .fixed ∧ s.due (some (after 10000 s.image.staleTime)) = false ∧
    s.due (some (after 10000 s.image.dwellCap)) = false ∧ boundary (s.image.reachesInUse 2) 2 = 150 ∧ 150 ≤ t.distance + s.image.reversalTolerance ∧
    (predictTimes (s.image.reachesInUse 2) 2 { lastDeparted := t.lastDeparted, dwellStop := some 1, stopArrive := some 10000 } (s.image.reachesInUse 2)[1]? none
      150 0 10000).delta ≤ s.image.horizon ∧
    (predictTimes (s.image.reachesInUse 2) 2 { lastDeparted := some 1, dwellStop := none, stopArrive := none } none none 150 0 10000).delta ≤ s.image.horizon

/-- PositionUpdatesItsTrack, the stops: an arrival of an APPROACHING bus, of one that dwells at another stop and of one that dwells there; a departure. -/
theorem test_w_stops :
    let far : Track := { bus39 with state := .dwelling, distance := 400, dwellStop := some 0 }
    stopsAt (meets bus39 (.stopArrive 1 none)) bus39 (.stopArrive 1 none) ∧ stopsAt (meets far (.stopArrive 1 none)) far (.stopArrive 1 none) ∧
      stopsAt (meets dwelling39 (.stopArrive 1 (some (-5)))) dwelling39 (.stopArrive 1 (some (-5))) ∧ dwelling39.dwellStop = some 1 ∧
      stopsAt (meets dwelling39 (.stopDepart 1 none)) dwelling39 (.stopDepart 1 none) := by
  unfold stopsAt
  refine ⟨?_, ?_, ?_, ?_, ?_⟩ <;> decide +kernel

/-- PassageClearsItsTrack: a track that is not listed and not pinned. -/
theorem test_w_passage_pin : bus39.listed = none ∧ bus39.pinned = false := by decide

/-- StallsEndByRoomOrLimit: the next choice is 0, the list of choices at its end, and another number. -/
theorem test_w_stall_choice :
    (stalled 10001).orderChoices.headD 0 = 0 ∧ ({ stalled 10001 with orderChoices := [1] } : State).orderChoices.headD 0 ≠ 0 := by
  decide +kernel

/-- The conditions under which a bus of A2 departs from its stop 1 at a clock value. -/
def mayDepart (s : State) (time : Clock) : Prop :=
  1 ≤ boundary (s.image.reachesInUse 2) 2 ∧
    (predictTimes (s.image.reachesInUse 2) 2 { lastDeparted := some 1, dwellStop := none, stopArrive := none } none none (boundary (s.image.reachesInUse 2) 2) 0
      time).delta ≤ s.image.horizon ∧ s.due (some (after time s.image.staleTime)) = false

/-- DwellExpiryRaisesItsAnomaly: a bus that departs at the expiry of a dwell that is not referred. -/
theorem test_w_dwell_departs :
    mayDepart (withBus dwelling39 base) 10000 ∧ dwelling39.state = .dwelling ∧ dwelling39.approach = some 2 ∧ dwelling39.dwellStop = some 1 ∧
      dwelling39.stopArrive = some 8200 := by
  unfold mayDepart
  decide +kernel

/-- The track of vehicle 39 with its referral open, and a referral of a class that holds something of it, opened at 9995 and due at 10000. -/
def referred39 (t : Track) (cls : AnomalyClass) (held : Held) (figures : Figures) : State :=
  { withBus { t with referralOpen := true } base with
    referral := some { cls := cls, vehicle := 39, place := .approach 2, held := held, figures := figures, opening := 9995, deadline := 10000, superseded := 0 } }

def heldPosition (cls : AnomalyClass) (D : Nat) : State :=
  referred39 bus39 cls (.report (reportOf (.position D 60 none) 9995) false none) (.distance D 800)

/-- What a returned POSITION's clauses ask of a distance: within the approach, and its ETA within the horizon. -/
def predictable (s : State) (D : Nat) (time : Clock) : Prop :=
  1 ≤ D ∧ D ≤ boundary (s.image.reachesInUse 2) 0 ∧
    (predictTimes (s.image.reachesInUse 2) 2 { lastDeparted := none, dwellStop := none, stopArrive := none } none none D 60 time).delta ≤ s.image.horizon

/-- RulingsCloseReferrals, ReferralDeadlineAppliesTheDefault, a POSITION held: for a distance beyond the approach, whose clamp is within the reversal tolerance to the
metre; for a reversal; and for the horizon. Its deadline is due. -/
theorem test_w_held_position :
    (∀ f, (heldPosition .distance 900).referral = some f →
      (heldPosition .distance 900).holdsPosition f place39 { bus39 with referralOpen := true } (reportOf (.position 900 60 none) 9995) 900 60 none) ∧
      (heldPosition .distance 900).due (some 10000) = true ∧ min 900 (boundary (testImage.reachesInUse 2) 0) = 800 ∧
      800 ≤ bus39.distance + testImage.reversalTolerance ∧ predictable base 800 9995 ∧ predictable base bus39.distance 9995 ∧ predictable base 1 9995 ∧
      (∀ f, (heldPosition .reversal 799).referral = some f →
        (heldPosition .reversal 799).holdsPosition f place39 { bus39 with referralOpen := true } (reportOf (.position 799 60 none) 9995) 799 60 none) ∧
      (∀ f, (heldPosition .horizon 620).referral = some f →
        (heldPosition .horizon 620).holdsPosition f place39 { bus39 with referralOpen := true } (reportOf (.position 620 60 none) 9995) 620 60 none) := by
  unfold predictable
  refine ⟨?_, ?_, ?_, ?_, ?_, ?_, ?_, ?_, ?_⟩ <;> decide +kernel

/-- RulingsCloseReferrals: the refusals' boundary values; the number of an UNPLACED ruling and the group it gives; a report's discard on a track that is not listed. -/
theorem test_w_rulings :
    let s := heldPosition .reversal 799
    let u : State := { base with referral := some (referral39 10000) }
    s.marker = false ∧ s.stall = none ∧ s.lookup 39 = some place39 ∧ s.track place39 = some { bus39 with referralOpen := true } ∧ bus39.listed = none ∧
      (anomalyIndex .reversal).val = 1 ∧ (anomalyIndex .distance).val = 0 ∧ (anomalyIndex .horizon).val = 2 ∧ (anomalyIndex .dwell).val = 3 ∧
      (anomalyIndex .conflict).val = 4 ∧ (anomalyIndex .unplaced).val = 5 ∧ 3 ≤ 3 ∧ 8 ≤ 8 ∧ (7 : GroupNo).val = 7 ∧ u.stall = none ∧
      (referral39 10000).held = .report (reportOf (.checkIn 12 620 60 none) 9950) true none ∧ u.image.enabled 2 = true ∧ u.lookup 39 = none ∧
      (u.sets.get 7).a = none ∧ predictable u 620 9950 ∧ u.due (some (after 9950 u.image.staleTime)) = false := by
  unfold predictable
  decide +kernel

/-- J1 awaits a ruling on vehicles 39 and 40, its mirror stale. -/
def conflict39 : State :=
  { unitAt 10000 fun x => { x with list := [entry39], state := .awaitRuling } with
    referral := some { cls := .conflict, vehicle := 39, place := .junction 1, held := .conflict 39 40, opening := 9995, deadline := 10000, superseded := 0,
                       figures := .conflict { vehicle := 39, tier := 2, busPhase := 2, eta := 10883 } { vehicle := 40, tier := 2, busPhase := 0, eta := 10883 } } }

/-- RulingsCloseReferrals, ReferralDeadlineAppliesTheDefault, a conflict: DEFAULT, DISCARD and both vehicles of a SUBSTITUTE, and a third vehicle; the deadline due, and the
class's state and mirror. -/
theorem test_w_conflict :
    conflict39.marker = false ∧ (conflict39.junction 1).state = .awaitRuling ∧ (conflict39.junction 1).stale = true ∧ conflict39.linkSettled ∧
      conflict39.due (some 10000) = true ∧ conflict39.referral.map (fun f => (f.cls, f.held, f.place)) = some (.conflict, .conflict 39 40, .junction 1) ∧
      conflict39.referral.bind (·.other) = some 40 ∧ conflict39.referral.map (·.vehicle) = some 39 ∧ (some 41 ≠ some 40) := by
  decide +kernel

def heldDwell : State := referred39 { dwelling39 with dwellDeadline := none } .dwell .dwell (.dwell 1 8200 1800)

/-- RulingsCloseReferrals, ReferralDeadlineAppliesTheDefault, a dwell: its departure at the opening time, and a remaining dwell of 1200, the end of its range, and beyond. -/
theorem test_w_held_dwell :
    heldDwell.stall = none ∧ heldDwell.lookup 39 = some place39 ∧
      heldDwell.track place39 = some { dwelling39 with dwellDeadline := none, referralOpen := true } ∧
      heldDwell.referral.map (fun f => (f.cls, f.held)) = some (.dwell, .dwell) ∧ heldDwell.due (some 10000) = true ∧ mayDepart heldDwell 9995 ∧
      min 1201 1200 = 1200 ∧ dwelling39.distance ≤ boundary (heldDwell.image.reachesInUse 2) 0 ∧ 1 ≤ dwelling39.distance ∧
      (predictTimes (heldDwell.image.reachesInUse 2) 2 { lastDeparted := none, dwellStop := some 1, stopArrive := some 8200 } (heldDwell.image.reachesInUse 2)[1]?
        (some 1200) 150 100 10000).delta ≤ heldDwell.image.horizon ∧
      heldDwell.due (some (after 10000 heldDwell.image.dwellCap)) = false := by
  unfold mayDepart
  decide +kernel

/-- ReferralDeadlineAppliesTheDefault: TM stalled, an UNPLACED report, and a report of an approach that is disabled, at the deadline. -/
theorem test_w_default_waits :
    let s := heldPosition .distance 900
    let off : State := { s with image := { s.image with enables := { s.image.enables with approach := .replicate 16 false } } }
    ({ s with stall := some (stall39 10001) } : State).stall ≠ none ∧ s.linkSettled ∧ off.image.enabled 2 = false ∧ off.stall = none ∧
      off.lookup 39 = some place39 ∧ ({ base with referral := some (referral39 10000) } : State).due (some (referral39 10000).deadline) = true ∧
      (referral39 10000).cls = .unplaced ∧ off.referral.map (·.cls) = some .distance := by
  decide +kernel

/-- J0 is present too, with no approach. -/
def twoJunctions (s : State) : State :=
  { s with image := { s.image with junctions := s.image.junctions.set 0 { present := true, phaseCount := 4 } } }

/-- The hypotheses of an accepted write. -/
def accepted (s : State) (i : Nat) (values : WrittenEntry) (k : CheckedWrite) : Prop :=
  s.marker = false ∧ fitsTable values = true ∧ checkWrite { index := i, values := values } = some k ∧ (s.lock && lockBars s.image k) = false ∧
    (applyWrite s.image k).consistent = true

def offAt (a : ApproachNo) : Enables := { testImage.enables with approach := testImage.enables.approach.set a false }

/-- WritesReplaceTheirEntry, the effects: J0 is taken away; J1's ring falls to two phases, below A2's and its mirror's; A2 is bound to another phase, and turned off; a level;
and an averaging interval raised from 0. -/
theorem test_w_write_effects :
    accepted (twoJunctions base) 0 (.junction 0 4) (.junction 0 { present := false, phaseCount := 4 }) ∧ ((twoJunctions base).image.junction 0).present = true ∧
      accepted base 1 (.junction 1 2) (.junction 1 { present := true, phaseCount := 2 }) ∧ 2 < (base.image.junction 1).phaseCount ∧
      base.image.enabled 2 = true ∧ (applyWrite base.image (.junction 1 { present := true, phaseCount := 2 })).enabled 2 = false ∧
      2 ≤ (green 0 200 9990).phase.val ∧
      accepted base 2 (.approach { presence := 1, value := 1 } 3 3 2 { presence := 0, value := 0 } 1) (.approach 2 { testImage.approach 2 with busPhase := 3 }) ∧
      (base.image.approach 2).busPhase ≠ 3 ∧
      accepted base 0 (.enables (List.replicate 16 0) [1, 1, 1, 1] [0, 0, 0] [0, 0, 0, 0, 0]) (.enables (offAt 2)) ∧ (offAt 2).approach.get 2 = false ∧
      accepted base 0 (.level 600 2) (.level 0 { cap := 600, floor := 2 }) ∧ (∀ j, (base.junction j).stale = true) ∧ claimsGrant entry39 = false ∧
      accepted { base with averagingDeadline := none } 14 (.parameter 1) (.parameter 14 1) ∧ 0 < 1 := by
  unfold accepted
  decide +kernel

/-- WritesReplaceTheirEntry, EnablesAreWrittenByGroup: a listed track on an approach, with its entry. -/
theorem test_w_withdraws :
    let t : Track := { bus39 with listed := some 1 }
    let s := withBus t (unitAt 10000 fun x => { x with list := [entry39] })
    s.track place39 = some t ∧ t.approach = some 2 ∧ t.listed = some 1 ∧ findEntry 39 (s.junction 1).list = some entry39 ∧ entry39.way = place39.way ∧
      s.image.enables.approach.get 2 = true ∧ (offAt 2).approach.get 2 = false ∧
      ({ s.image with enables := offAt 2 } : Image).consistent = true := by
  decide +kernel

/-- J1 IN_FORCE with the grant of vehicle 39 (§6.9), its entry first in the list. -/
def inForce39 (h : Entry) (l : List Entry) (x : Junction) : Junction :=
  { ordering39 x with
    list := h :: l, state := .inForce, outstanding := none, used := 63
    grant := some { grant39 with extensionInForce := 63, extensionCharged := 63, startDue := false } }

def holder39 : Entry := { entry39 with state := .granted, verdict := none }

/-- What EvaluationsBeginGrants asks of a junction whose grant tests are made. -/
def testsGrant (s : State) (j : JunctionNo) (g : Grant) (pe : Clock) (h : Entry) : Prop :=
  s.stall = none ∧ s.linkSettled ∧ s.present j = true ∧ g.busPhase.val < (s.image.junction j).phaseCount ∧ (s.junction j).state = .inForce ∧
    (s.junction j).outstanding = none ∧ (s.junction j).grant = some g ∧ g.kind = .extend ∧ g.closing = false ∧ g.ending = none ∧ g.target = none ∧
    g.plannedEnd = some pe ∧ g.holder = some { vehicle := h.vehicle, way := h.way } ∧ h.state = .granted ∧ h.busPhase = g.busPhase

def openTo (s : State) (j : JunctionNo) (x : Entry) : Prop :=
  claimsGrant x = false ∧ s.tierFloor j ≤ x.tier ∧ ((s.reliability.get x.approach).tagged = false ∨ x.confirmed = true) ∧ x.suspended = false ∧
    x.referred = false ∧ later x.eta s.clock = true

def granted39 : Grant := { grant39 with extensionInForce := 63, extensionCharged := 63, startDue := false }

def rider40 (eta : Clock) : Entry := { entry39 with vehicle := 40, eta := eta }

/-- EvaluationsBeginGrants, the rider: a bus whose end, with its margin, lies on the bound, as the holder's does. -/
theorem test_w_rider :
    let s := unitAt 10700 (inForce39 holder39 [rider40 10883])
    testsGrant s 1 granted39 10850 holder39 ∧ openTo s 1 (rider40 10883) ∧ atOrAfter 10883 granted39.windowStart = true ∧
      atOrAfter granted39.bound (after 10883 s.image.clearMargin) = true ∧ later (after holder39.eta s.image.clearMargin) granted39.bound = false ∧
      (rider40 10883).busPhase = granted39.busPhase := by
  unfold testsGrant openTo
  decide +kernel

/-- J1 as a ring of two, the grant on its phase P1, under a SPLIT gate that the grant has closed to the middle tier alone. -/
def preempted39 : State :=
  ringOfTwo fun x =>
    let h : Entry := { holder39 with busPhase := 1 }
    { inForce39 h [{ rider40 10200 with busPhase := 0, tier := 3 }] x with
      gate := { mode := .split, m := true, u := false, tu := 3 }
      grant := some { granted39 with busPhase := 1, windowStart := 9850, bound := 10913, plannedEnd := some 10850 } }

/-- EvaluationsBeginGrants, the pre-emption: P1 is green, its minimum served, for 250 more; the bus of P0 comes 100 before that phase's green at 10300. -/
theorem test_w_preemption :
    let s := preempted39
    let x : Entry := { rider40 10200 with busPhase := 0, tier := 3 }
    let e := s.image.phase 1 1
    testsGrant s 1 { granted39 with busPhase := 1, windowStart := 9850, bound := 10913, plannedEnd := some 10850 } 10850 { holder39 with busPhase := 1 } ∧
      openTo s 1 x ∧ e.guarded = false ∧ gateAdmits (s.junction 1).gate 3 = true ∧ (s.image.junction 1).phaseCount = 2 ∧
      later (after 10000 (250 + e.clearance)) 10200 = true ∧
      min (min (250 - (e.minGreen - 150)) (elapsed (after 10000 (250 + e.clearance)) 10200)) (s.budgetLeft 1) = 100 ∧ s.image.minimumCut ≤ 100 := by
  unfold testsGrant openTo
  decide +kernel

/-- EvaluationsBeginGrants, the stretch: the holder is 87 late, and needs the whole maximum extension of 150; or one more than that. -/
theorem test_w_stretch :
    let s (eta : Clock) := unitAt 10700 (inForce39 { holder39 with eta := eta } [])
    testsGrant (s 10970) 1 granted39 10850 { holder39 with eta := 10970 } ∧ later 10970 (s 10970).clock = true ∧
      later (after 10970 (s 10970).image.clearMargin) granted39.bound = true ∧ elapsed (after 10970 (s 10970).image.clearMargin) 10850 = 150 ∧
      150 ≤ ((s 10970).image.phase 1 2).maxExtension ∧ 150 ≤ granted39.extensionInForce + (s 10970).budgetLeft 1 ∧
      ¬ elapsed (after 10971 (s 10971).image.clearMargin) 10850 ≤ ((s 10971).image.phase 1 2).maxExtension := by
  unfold testsGrant
  decide +kernel

/-- The CANCEL of that pre-emption is outstanding; no extension was charged. -/
def cancelled39 : State :=
  ringOfTwo fun x =>
    { ordering39 x with
      list := [{ holder39 with busPhase := 1 }, { rider40 10200 with busPhase := 0, tier := 3 }]
      gate := { mode := .split, m := true, u := false, tu := 3 }
      mirror := some { phase := 1, interval := .green, elapsed := 150, remaining := 250, receipt := 10000 }
      outstanding := some { order := .cancel, tag := 17, deadline := 10010, ofGrant := true }
      grant := some { grant39 with kind := .early, busPhase := 1, cutCharged := 40, target := some 40, closing := true, ending := some .preempted } }

/-- AcceptedClosesEndTheGrant, the takeover: the target is admissible, and judged EARLY, when the grant is gone. -/
theorem test_w_takeover :
    let y : Entry := { rider40 10200 with busPhase := 0, tier := 3 }
    let s' := cancelled39.setJunction 1 { cancelled39.junction 1 with outstanding := none, grant := none }
    cancelled39.stall = none ∧ cancelled39.linkSettled ∧ cancelled39.present 1 = true ∧ (cancelled39.junction 1).pendingOrder = none ∧
      findEntry 40 (cancelled39.junction 1).list = some y ∧ claimsGrant y = false ∧ admissible s' 1 y = true ∧ s'.judge 1 y = .early [(1, 100)] := by
  decide +kernel

/-- A grant of an early green for vehicle 39. -/
def early39Grant : Grant := { grant39 with kind := .early, plannedEnd := none, cut := 50, cutCharged := 50, startDue := false }

def earlyGreen (eta : Clock) : State :=
  let s := unitAt 10650 fun x => { inForce39 { holder39 with eta := eta } [] x with grant := some early39Grant }
  { s with image := { s.image with parameters := s.image.parameters.set 11 1 } }

/-- AcceptedClosesEndTheGrant, the mirror updates: the green of an EARLY grant ends with its holder's need, and one tick short of it; another interval, and another phase. -/
theorem test_w_mirror_ends :
    let s := earlyGreen 10820
    s.stall = none ∧ s.linkSettled ∧ s.present 1 = true ∧ (2 : PhaseNo).val < (s.image.junction 1).phaseCount ∧ (s.junction 1).outstanding = none ∧
      (s.junction 1).grant = some early39Grant ∧ early39Grant.closing = false ∧ early39Grant.ending = none ∧
      findEntry 39 (s.junction 1).list = some { holder39 with eta := 10820 } ∧ later 10820 s.clock = true ∧ later (10650 - BitVec.ofNat 32 0) 10820 = false ∧
      atOrAfter (after 10650 200) (after 10820 s.image.clearMargin) = true ∧ 0 < s.image.recoveryMinimum ∧
      atOrAfter (after 10650 200) (after 10821 s.image.clearMargin) = false ∧ elapsed (after 10821 s.image.clearMargin) (after 10650 200) = 1 ∧
      1 ≤ (s.image.phase 1 2).maxExtension ∧ 1 ≤ s.budgetLeft 1 ∧ (∀ z ∈ (s.junction 1).list, z.busPhase = 2) ∧
      granted39.kind = .extend ∧ ((unitAt 10860 (inForce39 holder39 [])).junction 1).grant = some granted39 ∧ (3 : PhaseNo) ≠ granted39.busPhase := by
  decide +kernel

/-- J1 at 10650 with a fresh mirror and the request of vehicle 39, otherwise as given. -/
def ready (f : Junction → Junction) : State :=
  unitAt 10650 fun x => f { x with list := [entry39], mirror := some (green 0 200 10650), stale := false, tagCounter := 17 }

/-- RecoveryAndWindowsEnd, SetGateWritesOrDefers, ClearFaultThaws, TagsAreSetAndHold: states whose one entry is judged EXTEND at the evaluation that follows. -/
theorem test_w_extendable :
    let recovering := ready fun x => { x with state := .recovery, recoveryDeadline := some 10650, gate := { openGate with m := true }, saved := some openGate }
    let spent := ready fun x => { x with used := 600, windowDeadline := 10650 }
    let shut := ready fun x => { x with gate := { openGate with m := true } }
    let frozen := ready fun x => { x with state := .frozen, faults := { noFaults with noAck := true } }
    let held := tagged2 (ready id)
    (recovering.due (some 10650) = true ∧
        (recovering.setJunction 1 { (recovering.junction 1).restored with state := .idle, recoveryDeadline := none }).extendable 1 (green 0 200 10650) entry39) ∧
      (spent.due (some (spent.junction 1).windowDeadline) = true ∧
        (spent.setJunction 1 { spent.junction 1 with used := 0, windowNumber := 1, windowDeadline := after 10650 spent.image.budgetWindow }).extendable 1
          (green 0 200 10650) entry39) ∧
      ((shut.junction 1).saved = none ∧
        ((shut.hunt .supervisor).setJunction 1 { shut.junction 1 with gate := openGate }).extendable 1 (green 0 200 10650) entry39) ∧
      ((frozen.junction 1).state = .frozen ∧
        ((frozen.hunt .supervisor).setJunction 1 { (frozen.junction 1).restored with faults := noFaults, state := .idle }).extendable 1 (green 0 200 10650) entry39) ∧
      ((held.reliability.get 2).tagged = true ∧ ({ held.hunt .supervisor with reliability := held.reliability.set 2 { held.reliability.get 2 with tagged := false } } :
        State).extendable 1 (green 0 200 10650) entry39) := by
  dsimp only [State.extendable]
  refine ⟨⟨?_, ?_⟩, ⟨?_, ?_⟩, ⟨?_, ?_⟩, ⟨?_, ?_⟩, ?_, ?_⟩ <;> decide +kernel

/-- SetGateWritesOrDefers: a gate that admits no tier, at an IDLE junction with a fresh mirror. -/
theorem test_w_shut_gate :
    let s := ready id
    s.marker = false ∧ (s.junction 1).saved = none ∧ (s.junction 1).stale = false ∧ (s.junction 1).state = .idle ∧ (s.junction 1).carry = none ∧
      claimsGrant entry39 = false ∧ gateAdmits { mode := .split, m := true, u := true, tu := 2 } 3 = false := by
  decide +kernel

/-- LoadsFollowTheirSamples: an average one below a threshold less the hysteresis, and one at it; a rise at the averaging deadline whose notice is enabled. -/
theorem test_w_falls :
    let img := testImage
    let l : Load := { restLoad with sum := 80, count := 1 }
    ((34 : Nat) : Int) < (img.threshold .lo : Int) - img.hysteresis ∧ ¬ ((35 : Nat) : Int) < (img.threshold .lo : Int) - img.hysteresis ∧
      fallenLevel img .hi 34 = .normal ∧ fallenLevel img .hi 35 = .lo ∧ base.due (some 10000) = true ∧
      levelIndex l.level < levelIndex (comparedLoad img (closedLoad l)).level := by
  decide +kernel

/-- PhantomsLeak: a track lost while GRANTED, one short of the threshold and at it, and while WAITING. -/
theorem test_w_phantom :
    let t : Track := { bus39 with listed := some 1, staleDeadline := some 10000 }
    let s (x : Entry) : State := withBus t (unitAt 10000 fun y => { y with list := [x] })
    (s holder39).stall = none ∧ (s holder39).linkSettled ∧ (s holder39).track place39 = some t ∧ (s holder39).due (some 10000) = true ∧ t.journey = none ∧
      findEntry 39 ((s holder39).junction 1).list = some holder39 ∧ holder39.state = .granted ∧ entry39.state ≠ .granted ∧
      (let n := (s holder39).image.phantomThreshold
       (n - 2) + 1 < n ∧ n ≤ (n - 1) + 1 ∧ 2 ≤ n) := by
  decide +kernel

/-! ### Reports on tracks, full lists and lists of two -/

/-- ClockMovesByTickAndColdStart, StallsEndByRoomOrLimit: the tick without a stall, with a full queue, and with room for a stalled invalidation. -/
theorem test_w_tick :
    let room : State := { stalled 10001 with noticeQueue := List.replicate 15 someNotice }
    base.stall = none ∧ 16 ≤ (stalled 10001).noticeQueue.length ∧ (stalled 10001).stall ≠ none ∧ room.stall = some (stall39 10001) ∧
      room.noticeQueue.length < 16 ∧ room.supervisorFrame ≠ none ∧ (stall39 10001).work = .invalidate .stale ∧ room.waiting = [] ∧
      room.track place39 = some (cleared39 9980) ∧ (cleared39 9980).journey = some record39 ∧
      (result .corridorClockTick room).stall = none ∧ (result .corridorClockTick room).clock = 10001 := by
  decide +kernel

theorem takes_of {s : State} {k : SlotNo} {r : Report} {p : Place} {t : Track} (h : s.picks k r) (he : s.image.enabled r.approach = true)
    (hl : s.lookup r.vehicle = some p) (ht : s.track p = some t) (ho : t.referralOpen = false)
    (hs : (t.lastSeen.map (earlier r.stamp)).getD false = false) : s.takes k r p t := by
  refine ⟨h, he, hl, ht, ho, fun seen e => ?_⟩
  rw [e] at hs
  exact hs

/-- A bus of another set that was listed at J1. -/
def listed (n : Nat) (tier : Nat) (state : RequestState) : Entry :=
  { entry39 with vehicle := 100 + n, tier := tier, eta := 10800 + BitVec.ofNat 32 n, state := state }

/-- J1's list is full, in order; the track that waits for its POSITION is not listed. -/
def fullList (tier : Nat) (state : RequestState) : State :=
  (meets bus39 (.position 620 60 (some 60))).setJunction 1
    { base.junction 1 with list := (List.range 12).map fun n => listed n tier state }

/-- QueuesStayWithinBounds, the order: a list of two in their order, at ETAs that the clock orders. -/
theorem test_w_sorted :
    let s := unitAt 10000 fun x => { x with list := [entry39, { entry39 with vehicle := 40, eta := 10884 }] }
    s.withinBounds ∧ s.etasNear ∧ s.listsSorted ∧ base.etasNear ∧ base.listsSorted := by
  decide +kernel

/-- QueuesStayWithinBounds, the full list: the bus of tier 2 sorts before the tail, and after a tail of tier 3; the tail claims no grant, or every entry does. -/
theorem test_w_full_list :
    (∀ (tier : Nat) (state : RequestState), tier = 1 ∨ tier = 3 → state = .waiting ∨ state = .granted →
      (fullList tier state).takes 0 (reportOf (.position 620 60 (some 60)) 10000) place39 bus39) ∧
      bus39.state = .approaching ∧ bus39.approach = some 2 ∧ bus39.listed = none ∧ (base.image.approach 2).junction = some 1 ∧
      ((fullList 1 .waiting).junction 1).stale = true ∧ 12 ≤ ((fullList 1 .waiting).junction 1).list.length ∧
      distinctVehicles ((fullList 1 .waiting).junction 1).list = true ∧ findEntry 39 ((fullList 1 .waiting).junction 1).list = none ∧
      ((fullList 1 .waiting).junction 1).list = (List.range 11).map (fun n => listed n 1 .waiting) ++ listed 11 1 .waiting :: [] ∧
      claimsGrant (listed 11 1 .waiting) = false ∧ sortsBefore entry39 (listed 11 1 .waiting) = true ∧
      sortsBefore entry39 (listed 11 3 .waiting) = false ∧ claimsGrant (listed 11 1 .granted) = true ∧
      (result .takeReport (fullList 1 .waiting)).track place39 ≠ none := by
  refine ⟨fun tier state ht hs => ?_, by decide +kernel⟩
  rcases ht with rfl | rfl <;> rcases hs with rfl | rfl <;>
    exact takes_of (by unfold State.picks; decide +kernel) (by decide +kernel) (by decide +kernel) (by decide +kernel) rfl (by decide +kernel)

/-- J1 awaits a ruling on vehicles 39 and 40, in this order, with vehicle 102 behind them; the POSITION that waits makes vehicle 39 the last of the three. -/
def conflictPosition (f : Entry → Entry) : State :=
  ({ (meets { bus39 with listed := some 1 } (.position 620 60 (some 60))) with referral := conflict39.referral } : State).setJunction 1
    { base.junction 1 with
      state := .awaitRuling, list := [{ entry39 with eta := 10700 }, { entry39 with vehicle := 40, eta := 10750 }, f (listed 2 2 .waiting)] }

/-- R106: the update leaves vehicle 39 in its place; at the default it takes its position. -/
theorem test_conflict_keeps_places :
    let order (s : State) : List (Nat × Clock) := (s.junction 1).list.map fun x => (x.vehicle, x.eta)
    let t := result .takeReport (conflictPosition id)
    order t = [(39, 10883), (40, 10750), (102, 10802)] ∧ (t.junction 1).state = .awaitRuling ∧
      order (result .referralDeadline t) = [(40, 10750), (102, 10802), (39, 10883)] := by
  decide +kernel

/-- QueuesStayWithinBounds, an update: of one of the two of an open conflict, and of a listed bus beside it that is neither of them. -/
theorem test_w_update :
    let s := conflictPosition id
    let other : State := { s with referral := none }
    s.takes 0 (reportOf (.position 620 60 (some 60)) 10000) place39 { bus39 with listed := some 1 } ∧
      (s.junction 1).state = .awaitRuling ∧ (other.junction 1).stale = true ∧ findEntry 39 (s.junction 1).list ≠ none ∧
      s.keepsPlace 1 39 = true ∧ other.keepsPlace 1 39 = false ∧ s.listsSorted ∧ s.etasNear := by
  refine ⟨takes_of (by unfold State.picks; decide +kernel) (by decide +kernel) (by decide +kernel) (by decide +kernel) rfl (by decide +kernel), by decide +kernel⟩

/-- The times of a CHECK-IN that starts an approach lie within the horizon. -/
def startsAt (D : Nat) : Prop :=
  1 ≤ D ∧ D ≤ boundary (testImage.reachesInUse 2) 0 ∧
    (predictTimes (testImage.reachesInUse 2) 2 { lastDeparted := none, dwellStop := none, stopArrive := none } none none D 60 10000).delta ≤ testImage.horizon

/-- A bus on approach A3, listed at J1. -/
def moved39 : Track := { bus39 with approach := some 3, listed := some 1, pinned := true }

def movedState (x : Entry) : State :=
  (meets moved39 (.checkIn 12 620 60 none)).setJunction 1 { base.junction 1 with list := [{ x with approach := 3 }] }

def expected39 : Track := { bus39 with state := .expected, approach := none, lastSeen := none, eta := none, lastEta := none }

/-- PositionUpdatesItsTrack: a POSITION of a bus that dwells at stop 1, one metre short of it and at it, and a CHECK-IN on its own approach. -/
theorem test_w_position_dwelling :
    (∀ D : Nat, D = 149 ∨ D = 150 → (meets dwelling39 (.position D 60 none)).takes 0 (reportOf (.position D 60 none) 10000) place39 dwelling39) ∧
      (meets bus39 (.checkIn 12 620 60 none)).takes 0 (reportOf (.checkIn 12 620 60 none) 10000) place39 bus39 ∧
      dwelling39.state = .dwelling ∧ dwelling39.dwellStop = some 1 ∧ dwelling39.approach = some 2 ∧ boundary (testImage.reachesInUse 2) 2 = 150 ∧
      149 < 150 ∧ 150 ≤ dwelling39.distance + testImage.reversalTolerance ∧
      (predictTimes (testImage.reachesInUse 2) 2 { lastDeparted := some 1, dwellStop := none, stopArrive := none } none none 149 60 10000).delta ≤
        testImage.horizon ∧
      (predictTimes (testImage.reachesInUse 2) 2 { lastDeparted := none, dwellStop := some 1, stopArrive := some 8200 } (testImage.reachesInUse 2)[1]? none 150 60
        10000).delta ≤ testImage.horizon ∧
      base.due (some (after 10000 base.image.staleTime)) = false := by
  refine ⟨fun D h => ?_, takes_of (by unfold State.picks; decide +kernel) (by decide +kernel) (by decide +kernel) (by decide +kernel) rfl (by decide +kernel),
    by decide +kernel⟩
  rcases h with rfl | rfl <;>
    exact takes_of (by unfold State.picks; decide +kernel) (by decide +kernel) (by decide +kernel) (by decide +kernel) rfl (by decide +kernel)

/-- PositionUpdatesItsTrack, PassageClearsItsTrack: a CHECK-IN that starts the approach of an EXPECTED bus, of a CLEARED one (without a record, with 15 and with 16
notices queued) and of one that was listed on another approach, GRANTED and not. -/
theorem test_w_starts (D : Nat) (h : D = 0 ∨ D = 800) :
    let c : ReportBody := .checkIn 12 D 60 none
    let gone : Track := { cleared39 10290 with journey := none }
    (meets expected39 c).takes 0 (reportOf c 10000) place39 expected39 ∧ expected39.startsApproach 2 ∧ (meets gone c).takes 0 (reportOf c 10000) place39 gone ∧
      gone.startsApproach 2 ∧ (meets (cleared39 10290) c).takes 0 (reportOf c 10000) place39 (cleared39 10290) ∧
      (fullQueue (meets (cleared39 10290) c)).takes 0 (reportOf c 10000) place39 (cleared39 10290) ∧
      (meets moved39 c).takes 0 (reportOf c 10000) place39 moved39 ∧ moved39.startsApproach 2 := by
  rcases h with rfl | rfl <;> dsimp only <;> refine ⟨?_, .inl rfl, ?_, .inr (.inl rfl), ?_, ?_, ?_, .inr (.inr ⟨.inl rfl, 3, rfl, by decide⟩)⟩ <;>
    exact takes_of (by unfold State.picks; decide +kernel) (by decide +kernel) (by decide +kernel) (by decide +kernel) rfl (by decide +kernel)

theorem test_w_starts_at :
    startsAt 800 ∧ ({ base with noticeQueue := List.replicate 15 someNotice } : State).noticeQueue.length < 16 ∧ 16 ≤ (fullQueue base).noticeQueue.length ∧
      base.linkSettled ∧ expected39.listed = none ∧ (cleared39 10290).listed = none ∧
      findEntry 39 ((movedState holder39).junction 1).list = some { holder39 with approach := 3 } ∧ holder39.way = place39.way ∧ holder39.state = .granted ∧
      findEntry 39 ((movedState entry39).junction 1).list = some { entry39 with approach := 3 } ∧
      (base.reliability.get 3).phantoms + 1 < base.image.phantomThreshold ∧ (base.image.approach 2).junction = some 1 := by
  unfold startsAt
  decide +kernel

/-- PassageClearsItsTrack: a passage by a PASSED and by the distance 0 of a POSITION and a CHECK-IN, and the reports that refresh a CLEARED track. -/
theorem test_w_passages (b : ReportBody) (h : b = .passed ∨ b = .position 0 60 none ∨ b = .checkIn 12 0 60 none ∨ b = .stopArrive 1 none) :
    (meets bus39 b).takes 0 (reportOf b 10000) place39 bus39 ∧ (meets dwelling39 b).takes 0 (reportOf b 10000) place39 dwelling39 ∧
      (meets (cleared39 10290) b).takes 0 (reportOf b 10000) place39 (cleared39 10290) ∧ (cleared39 10290).approach = some 2 ∧ (meets (cleared39 10290) b).linkSettled := by
  rcases h with rfl | rfl | rfl | rfl <;> refine ⟨?_, ?_, ?_, rfl, by decide⟩ <;>
    exact takes_of (by unfold State.picks; decide +kernel) (by decide +kernel) (by decide +kernel) (by decide +kernel) rfl (by decide +kernel)

theorem test_w_passage_stop :
    base.image.isStop 2 1 = true ∧ ((base.image.reachesInUse 2)[1]?).map (·.dwellMode) = some .fixed ∧ (base.image.approach 2).junction = some 1 := by
  decide +kernel

/-- ExpiriesInvalidateOrStall: a CHECK-OUT of a listed bus, GRANTED and not, of a CLEARED one with a record (and room, and a full queue), and of an EXPECTED one. -/
theorem test_w_check_out :
    let go (t : Track) : Prop := (meets t .checkOut).takes 0 (reportOf .checkOut 10000) place39 t ∧ (t.approach ≠ none ∨ t.state = .expected ∨ t.state = .cleared)
    go { bus39 with listed := some 1, pinned := true } ∧ go (cleared39 10290) ∧ go expected39 ∧
      (fullQueue (meets (cleared39 10290) .checkOut)).takes 0 (reportOf .checkOut 10000) place39 (cleared39 10290) := by
  refine ⟨⟨?_, by decide⟩, ⟨?_, by decide⟩, ⟨?_, by decide⟩, ?_⟩ <;>
    exact takes_of (by unfold State.picks; decide +kernel) (by decide +kernel) (by decide +kernel) (by decide +kernel) rfl (by decide +kernel)

theorem test_w_check_out_rest :
    let s := (meets { bus39 with listed := some 1 } .checkOut).setJunction 1 { base.junction 1 with list := [holder39] }
    (meets (cleared39 10290) .checkOut).noticeQueue.length < 16 ∧ (cleared39 10290).journey = some record39 ∧ 16 ≤ (fullQueue base).noticeQueue.length ∧
      (fullQueue base).linkSettled ∧ findEntry 39 (s.junction 1).list = some holder39 ∧ holder39.way = place39.way ∧ holder39.state = .granted ∧
      (s.reliability.get 2).phantoms + 1 < s.image.phantomThreshold := by
  decide +kernel

/-- OpenReferralSupersedesReports: each screening test, failed: an approach that is off, a vehicle that is not in the table, a report earlier than the last seen by one,
one for another approach and for an EXPECTED track, and one that names a reach without a stop; a stop that is not served. -/
theorem test_w_screening :
    let late : Track := { bus39 with lastSeen := some 10001 }
    let away : Track := { bus39 with approach := some 3 }
    let off (s : State) : State := { s with image := { s.image with enables := { s.image.enables with approach := .replicate 16 false } } }
    let reach : ReachEntry := { length := 250, cruise := 100, stop := true, dwellMode := .none, fixedDwell := 200 }
    let unserved (s : State) : State := { s with image := { s.image with reaches := s.image.reaches.set 17 reach } }
    (∀ t : Track, t = bus39 ∨ t = late ∨ t = away ∨ t = expected39 → (meets t .passed).picks 0 (reportOf .passed 10000)) ∧
      (waiting (reportOf .passed 10000) base).picks 0 (reportOf .passed 10000) ∧ (waiting (reportOf .passed 10000) base).lookup 39 = none ∧
      (off (meets bus39 .passed)).picks 0 (reportOf .passed 10000) ∧ (off (meets bus39 .passed)).image.enabled 2 = false ∧ base.image.enabled 2 = true ∧
      (meets late .passed).lookup 39 = some place39 ∧ earlier 10000 10001 = true ∧ away.approach ≠ some 2 ∧ expected39.state = .expected ∧
      (meets bus39 (.stopDepart 0 none)).picks 0 (reportOf (.stopDepart 0 none) 10000) ∧ base.image.isStop 2 0 = false ∧
      (unserved (meets bus39 (.stopArrive 1 none))).picks 0 (reportOf (.stopArrive 1 none) 10000) ∧ (unserved base).image.isStop 2 1 = true ∧
      (((unserved base).image.reachesInUse 2)[1]?).map (·.dwellMode) = some .none := by
  unfold State.picks
  refine ⟨fun t h => ?_, ?_⟩
  · rcases h with rfl | rfl | rfl | rfl <;> decide +kernel
  · decide +kernel

/-- The conditions on the junction and its two entries that EvaluationsBeginGrants names, at an update. -/
def evaluatesTwo (s : State) (m : Mirror) (x y : Entry) : Prop :=
  s.stall = none ∧ s.linkSettled ∧ s.present 1 = true ∧ m.phase.val < (s.image.junction 1).phaseCount ∧ (s.junction 1).state = .idle ∧
    (s.junction 1).grant = none ∧ (s.junction 1).outstanding = none ∧ (s.junction 1).list = [x, y] ∧ x.vehicle ≠ y.vehicle ∧
    claimsGrant x = false ∧ claimsGrant y = false ∧ m.receipt = s.clock ∧ admissible (s.mirrored 1 m) 1 x = true ∧ admissible (s.mirrored 1 m) 1 y = true

/-- J1 as a ring of two at 10000, P0 green for 250 more, with a bus of P1 and one of P0; its carry and its conflict window as given. -/
def pair (x y : Entry) (carry : Option Carry) (s : State → State) : State := s (ringOfTwo fun z => { z with list := [x, y], carry := carry })

def green0 : Mirror := { phase := 0, interval := .green, elapsed := 150, remaining := 250, receipt := 10000 }

def winner : Entry := { early39 with verdict := none }
def rival (eta : Clock) : Entry := { rider40 eta with busPhase := 0 }

/-- EvaluationsBeginGrants, two entries: a bus that the plan serves and one that wins; two that the plan serves or that come too late; a winner first, with a second of its
tier and of the other phase exactly the conflict window behind it, and one tick more; the class referable, and not, and a referral open; carries that prefer each of them and
none, where one wins, and where the preferred one does not. -/
theorem test_w_pair :
    let s' (x y : Entry) (carry : Option Carry) := (pair x y carry id).mirrored 1 green0
    let served := rival 10150
    let third : Entry := { rival 10160 with vehicle := 41 }
    let w := testImage.conflictWindow
    evaluatesTwo (pair served winner none id) green0 served winner ∧ evaluatesTwo (pair served third none id) green0 served third ∧
      (s' served winner none).judge 1 served = .keep .servedByPlan ∧ (s' served winner none).judge 1 winner = .early [(0, 100)] ∧
      evaluatesTwo (pair winner (rival (after 10200 w)) none id) green0 winner (rival (after 10200 w)) ∧
      elapsed (after 10200 w) winner.eta = w ∧ elapsed (after 10200 (w + 1)) winner.eta = w + 1 ∧
      base.image.enables.referral.get 4 = false ∧ (referring base).image.enables.referral.get 4 = true ∧ base.referral = none ∧
      evaluatesTwo (pair served winner (some { preferred := some 39 }) id) green0 served winner ∧
      evaluatesTwo (pair winner served (some { preferred := some 40 }) id) green0 winner served ∧
      evaluatesTwo (pair winner served (some { preferred := none }) id) green0 winner served ∧
      (s' winner served (some { preferred := some 40 })).judge 1 served = .keep .servedByPlan := by
  dsimp only [evaluatesTwo]
  refine ⟨?_, ?_, ?_, ?_, ?_, ?_, ?_, ?_, ?_, ?_, ?_, ?_, ?_, ?_⟩ <;> decide +kernel

/-- EvaluationsBeginGrants, the judgement: an ETA at the clock; an extension one beyond the phase's limit, and one beyond the budget; a cut at the minimum and one below; a bus that
comes after its green begins, within its split and after it. -/
theorem test_w_judgements :
    let m : Mirror := green 0 200 10650
    let s := unitAt 10650 fun x => { x with mirror := some m, stale := false }
    let at_ (eta : Clock) : Entry := { entry39 with eta := eta }
    let two := (ringOfTwo id).mirrored 1 green0
    let other (eta : Clock) : Entry := { early39 with eta := eta }
    let least := two.image.minimumCut
    s.judge 1 (at_ 10650) = .keep .miss ∧ s.judge 1 (at_ 10970) = .extend 150 ∧ s.judge 1 (at_ 10971) = .keep .limit ∧
      (s.setJunction 1 { s.junction 1 with used := 451 }).judge 1 (at_ 10970) = .keep .budget ∧ (s.junction 1).grant = none ∧
      two.judge 1 (other (10300 - BitVec.ofNat 32 least)) = .early [(0, least)] ∧
      two.judge 1 (other (10301 - BitVec.ofNat 32 least)) = .keep .tooSmall ∧ two.judge 1 (other 10300) = .keep .servedByPlan ∧
      two.judge 1 (other 10570) = .keep .servedByPlan ∧ two.judge 1 (other 10571) = .keep .defer := by
  decide +kernel

/-- R26, R186: a report, a hand-on and a mirror found whole 2 ds after their last check byte have that clock value; FramesBeginAndEnd: each of them is a well-formed
command with a frame, at a present junction. -/
theorem test_found_stamp :
    let behind (i : Instr) : List HeardByte :=
      { byte := 0xC3, age := 4 } :: (((encodeFrame i).map (·.2)).getD []).map (fun b => { byte := b, age := 2 })
    let report : Instr := .radioReport (.report 39 2 .passed)
    let handOn : Instr := .handOnArrival { vehicle := 39, route := 12, deviation := 60, entry := 0 }
    let status : Instr := .phaseStatus { junction := 1, phase := 2, interval := .green, elapsed := 0, remaining := 200 }
    let call : Instr := .detectorCall 1 2 1
    (((result (.radioReport (.unfit (behind report))) base).slots.get 0).report.map (·.stamp)) = some 9998 ∧
      ((result (.abandonedFrame .corridor (.length (behind handOn))) base).corridorQueue.map (·.stamp)) = [9998] ∧
      (((result (.abandonedFrame .signal (.length (behind status))) base).junction 1).mirror.map (·.receipt)) = some 9998 ∧
      (((result (.abandonedFrame .signal (.length (behind call))) base).junction 1).lastCall.map (·.receipt)) = some 9998 ∧
      report.wf = true ∧ (encodeFrame report).isSome = true ∧ status.wf = true ∧ (encodeFrame status).isSome = true ∧ call.wf = true ∧
      (encodeFrame call).isSome = true ∧ base.present 1 = true ∧ (2 : PhaseNo).val < (base.image.junction 1).phaseCount := by
  decide +kernel

/-- PassageClearsItsTrack: a corridor transmitter with a frame in transmission, and 3 and 4 hand-ons that wait. -/
theorem test_w_corridor_busy :
    let h : OutHandOn := { vehicle := 1, route := 1, entry := 0, deviation := 0 }
    let s (n : Nat) : State := { passed39 with corridorFrame := some h, corridorWaiting := List.replicate n h }
    (∀ n : Nat, n = 3 ∨ n = 4 → (s n).takes 0 (reportOf .passed 10000) place39 bus39) ∧ (s 3).corridorFrame = some h ∧
      ((s 3).image.approach 2).exitTarget = some 3 ∧ (s 3).corridorWaiting.length < 4 ∧ ¬ (s 4).corridorWaiting.length < 4 ∧
      (result .takeReport (s 3)).corridorWaiting.length = 4 ∧ (result .takeReport (s 4)).corridorWaiting = List.replicate 4 h := by
  refine ⟨fun n h => ?_, by decide +kernel⟩
  rcases h with rfl | rfl <;>
    exact takes_of (by unfold State.picks; decide +kernel) (by decide +kernel) (by decide +kernel) (by decide +kernel) rfl (by decide +kernel)

/-- TM stalled at 10000 with a work in hand. -/
def stalledOn (w : Work) : State := { stalled 10000 with stall := some { stall39 10000 with work := w } }

def inHand (w : Work) : Stall := { stall39 10000 with work := w }

/-- StallsEndByRoomOrLimit: each work in hand, at the limit; a first prediction at the far end of the approach, and a hand-on's deadline still to come. -/
theorem test_w_works :
    let r : Report := reportOf (.checkIn 12 800 60 none) 10000
    (∀ w : Work, (stalledOn w).stall = some (inHand w) ∧ (stalledOn w).due (some (inHand w).limit) = true ∧ (stalledOn w).waiting = [] ∧
      (stalledOn w).track place39 = some (cleared39 9980) ∧ (stalledOn w).supervisorFrame ≠ none) ∧
      (stalledOn (.allocateReport r 0)).beginsWell r ∧ (stalledOn (.startApproach r)).beginsWell r ∧
      base.due (some (after 10000 (100 + base.image.expectMargin))) = false := by
  refine ⟨fun w => ⟨rfl, ?_, rfl, ?_, ?_⟩, ⟨12, 800, 60, none, rfl, ?_⟩, ⟨12, 800, 60, none, rfl, ?_⟩, by decide +kernel⟩
  · show (stalled 10000).due (some 10000) = true
    decide +kernel
  · show (stalled 10000).track place39 = some (cleared39 9980)
    decide +kernel
  · show (stalled 10000).supervisorFrame ≠ none
    decide +kernel
  · decide +kernel
  · decide +kernel

/-- A STOP DEPART from stop 1 of A2, held for HORIZON at its own distance. -/
def heldDepart : State :=
  referred39 bus39 .horizon (.report (reportOf (.stopDepart 1 none) 9995) false none) (.horizon 1600 1500)

/-- RulingsCloseReferrals, ReferralDeadlineAppliesTheDefault: a STOP DEPART held for HORIZON. -/
theorem test_w_held_depart :
    (∀ f, heldDepart.referral = some f →
      heldDepart.holdsDeparture f place39 { bus39 with referralOpen := true } (reportOf (.stopDepart 1 none) 9995) 1 none) ∧
      heldDepart.due (some 10000) = true ∧ 1 ≤ boundary (heldDepart.image.reachesInUse 2) 2 := by
  refine ⟨?_, ?_, ?_⟩ <;> decide +kernel

/-- R74, R156: the stop's distance is formed at the return: 150, and 120 once the last reach has been shortened. -/
theorem test_returned_stop :
    let reach : ReachEntry := { length := 120, cruise := 80, stop := false, dwellMode := .none, fixedDwell := 0 }
    let short : State := { heldDepart with image := { heldDepart.image with reaches := heldDepart.image.reaches.set 18 reach } }
    ((result .referralDeadline heldDepart).track place39).map (·.distance) = some 150 ∧
      ((result .referralDeadline short).track place39).map (·.distance) = some 120 := by
  decide +kernel

/-- RulingsCloseReferrals: a distance of 0 for a POSITION and a stop report held for REVERSAL, and the DISCARD of a listed bus under a stale mirror. -/
theorem test_w_zero (b : ReportBody) (h : b = .position 799 60 none ∨ b = .stopArrive 1 none) :
    let s := referred39 bus39 .reversal (.report (reportOf b 9995) false none) (.reversal 799 780 20)
    s.marker = false ∧ s.stall = none ∧ s.lookup 39 = some place39 ∧ s.track place39 = some { bus39 with referralOpen := true } ∧
      s.referral.map (fun f => (f.cls, f.held, f.place)) = some (.reversal, .report (reportOf b 9995) false none, .approach 2) ∧
      s.image.enabled 2 = true ∧ s.due (some (after 9995 s.image.staleTime)) = false := by
  rcases h with rfl | rfl <;> decide +kernel

theorem test_w_discard_listed :
    let t : Track := { bus39 with listed := some 1 }
    let s := (referred39 t .reversal (.report (reportOf (.position 799 60 none) 9995) false none) (.reversal 799 780 20)).setJunction 1
      { base.junction 1 with list := [{ entry39 with referred := true }] }
    s.marker = false ∧ s.stall = none ∧ s.lookup 39 = some place39 ∧ s.track place39 = some { t with referralOpen := true } ∧ (s.junction 1).stale = true := by
  decide +kernel

/-- FaultsFreezeTheJunction: a tag in the discard set; the abandoned tag of each kind, with and without an order outstanding; and orders of no grant. -/
theorem test_w_late_acks :
    let late (kind : OrderKind) : State := unitAt 10000 fun x => { x with state := .frozen, abandoned := some (17, kind), discard := [16] }
    let orphan (o : Order) (p : Option PendingOrder) : State := unitAt 10000 fun x => { x with
      state := .frozen, outstanding := some { order := o, tag := 18, deadline := 10010, ofGrant := false }, pendingOrder := p }
    (late .extend).stall = none ∧ (late .extend).linkSettled ∧ (late .extend).present 1 = true ∧ ((late .extend).junction 1).outstanding = none ∧
      16 ∈ ((late .early).junction 1).discard ∧ 17 ∉ ((late .release).junction 1).discard ∧ ((late .cancel).junction 1).abandoned = some (17, .cancel) ∧
      ((orphan .cancel none).junction 1).outstanding.map (fun o => (o.tag, o.ofGrant)) = some (18, false) ∧ (17 : Tag) ≠ 18 ∧
      orderKind (.extend 2 63) = .extend ∧ orderKind .cancel = .cancel ∧ ((orphan .cancel none).junction 1).pendingOrder = none ∧
      ((orphan (.release 2) (some { order := .cancel, ofGrant := false })).junction 1).pendingOrder = some { order := .cancel, ofGrant := false } := by
  decide +kernel

end Sys2Proof.Tests
end

section
/-!
SUPPORT. The images of a state: where the unit holds an image of its configuration (R2, R180, R183), and which commands reach those places: every
other command leaves the three of them as they stand.
-/
namespace Sys2Proof.Machine

/-! ### The images of a state -/

/-- The places of State that hold an image: the working image, the snapshot of a running commit and the store. -/
structure Images where
  working : Image
  snapshot : Option Image
  store : StoredImage

/-- The images among the steady parts. -/
def Steady.images (x : Steady) : Images := { working := x.image, snapshot := x.commit, store := x.stored }

/-- Every image that a command can load or read has a property: the working image, a snapshot, and a stored image that passes its check (R180). -/
structure Images.Satisfy (x : Images) (P : Image → Prop) : Prop where
  working : P x.working
  snapshot : ∀ img, x.snapshot = some img → P img
  store : x.store.passes = true → P x.store.tables

theorem State.configSound_iff (s : State) : s.configSound ↔ s.steady.images.Satisfy Image.sound :=
  ⟨fun ⟨working, snapshot, store⟩ => ⟨working, snapshot, store⟩, fun ⟨working, snapshot, store⟩ => ⟨working, snapshot, store⟩⟩

/-! ### The end of an event, and requests -/

@[simp] theorem startEvent_steady (s : State) : (startEvent s).steady = s.steady := rfl

@[simp] theorem stateAfter_next (s t : State) : stateAfter s (.next t) = t := rfl

@[simp] theorem refuse_after (r : Result) (e : Event) : (refuse r e).after = e := rfl

@[simp] theorem accept_after (b : ReplyBody) (e : Event) : (accept b e).after = e := rfl

@[simp] theorem hunt_images (s : State) (p : Port) : (s.hunt p).steady.images = s.steady.images := rfl

/-- An event leaves the images as its own work leaves them. -/
@[simp] theorem event_images (f : Event → Event) (s : State) : (event f s).steady.images = (f (startEvent s)).steady.images := by
  rw [event_steady]

/-- What a request's owner keeps of the images, the request keeps: neither the link nor the end of the event reaches them (R169–R171). -/
theorem request_keeps {α : Type} (Q : Images → Prop) (kind : Byte) (r : Request α) (handle : α → Event → Answer) (s : State)
    (hs : Q s.steady.images) (h : ∀ b e, Q e.steady.images → Q (handle b e).after.steady.images) :
    Q (stateAfter s (.next (request kind r handle s))).steady.images := by
  rw [stateAfter_next]
  cases hm : s.marker with
  | true => rwa [request_busy_steady _ _ _ _ hm]
  | false =>
    cases hb : r.body with
    | none => rwa [request_misfit_steady _ _ _ _ hm hb]
    | some b =>
      rw [request_steady _ _ _ _ _ hm hb]
      exact h b (startEvent (s.hunt .supervisor)) hs

/-- A request whose owner leaves the images leaves them. -/
theorem request_images {α : Type} (kind : Byte) (r : Request α) (handle : α → Event → Answer) (s : State)
    (h : ∀ b e, (handle b e).after.steady.images = e.steady.images) :
    (stateAfter s (.next (request kind r handle s))).steady.images = s.steady.images :=
  request_keeps (· = s.steady.images) kind r handle s rfl fun b e he => (h b e).trans he

@[simp] theorem refuse_bodyAt (r : Result) (e : Event) (s : State) : (refuse r e).bodyAt s = .empty := ite_self _

/-- A request that its owner refuses is answered with the refusal, and changes nothing (R169). -/
theorem request_refused {α : Type} (kind : Byte) (r : Request α) (handle : α → Event → Answer) (s : State) (b : α) (result : Result)
    (hm : s.marker = false) (hb : r.body = some b)
    (h : handle b (startEvent (s.hunt .supervisor)) = refuse result (startEvent (s.hunt .supervisor))) :
    request kind r handle s = (s.hunt .supervisor).replied kind r.number result .empty := by
  rw [request_answered kind r handle s b hm hb (by rw [h]; exact startEvent_quiet _), h]
  rw [refuse_bodyAt]
  rfl

/-- A request whose owner accepts it and writes the working image alone is answered, and the image stands as written (R169, R171). -/
theorem request_writesImage {α : Type} (kind : Byte) (r : Request α) (handle : α → Event → Answer) (s : State) (b : α) (img : Image)
    (body : State → ReplyBody) (hm : s.marker = false) (hb : r.body = some b)
    (h : handle b (startEvent (s.hunt .supervisor)) =
      { result := .ok, body := body, after := { startEvent (s.hunt .supervisor) with image := img } }) :
    request kind r handle s =
      ({ s.hunt .supervisor with image := img } : State).replied kind r.number .ok (body { s.hunt .supervisor with image := img }) := by
  rw [request_answered kind r handle s b hm hb (by rw [h]; exact ⟨rfl, rfl⟩), h]
  rfl

/-! ### Junctions, mirrors and detector calls (Chapters 5, 6 and 9) -/

@[simp] theorem turnStale_steady (j : JunctionNo) (e : Event) : (turnStale j e).steady = e.steady := rfl

@[simp] theorem updateMirror_steady (j : JunctionNo) (m : Mirror) (e : Event) : (updateMirror j m e).steady = e.steady := by
  simp [updateMirror]

@[simp] theorem confirmEntry_steady (j : JunctionNo) (a : ApproachNo) (time : Clock) (e : Event) :
    (confirmEntry j a time e).steady = e.steady := by
  unfold confirmEntry
  dsimp only
  (repeat' split) <;> simp

@[simp] theorem handleCall_steady (j : JunctionNo) (approach presence : Nat) (time : Clock) (e : Event) :
    (handleCall j approach presence time e).steady = e.steady := by
  unfold handleCall
  dsimp only
  (repeat' split) <;> simp

@[simp] theorem writeGate_steady (j : JunctionNo) (g : Gate) (e : Event) : (writeGate j g e).after.steady = e.steady := by
  unfold writeGate
  dsimp only
  split <;> simp

@[simp] theorem clearFaults_steady (j : JunctionNo) (kinds : List FaultKind) (e : Event) :
    (clearFaults j kinds e).steady = e.steady := by
  unfold clearFaults
  dsimp only
  split <;> simp

@[simp] theorem receiveStatus_images (r : PhaseStatusFrame) (arrival : Clock) (s : State) :
    (receiveStatus r arrival s).steady.images = s.steady.images := by
  unfold receiveStatus
  dsimp only
  split <;> simp

@[simp] theorem receiveCall_images (junction approach presence : Nat) (arrival : Clock) (s : State) :
    (receiveCall junction approach presence arrival s).steady.images = s.steady.images := by
  unfold receiveCall
  dsimp only
  split <;> simp

/-! ### Levels and the Load Monitor (R136–R140) -/

@[simp] theorem setLoad_images (j : JunctionNo) (x : Load) (e : Event) : (setLoad j x e).steady.images = e.steady.images := rfl

@[simp] theorem handLevel_steady (j : JunctionNo) (e : Event) : (handLevel j e).steady = e.steady := by
  unfold handLevel
  split <;> simp

@[simp] theorem compareLevel_images (j : JunctionNo) (e : Event) : (compareLevel j e).steady.images = e.steady.images := by
  unfold compareLevel
  dsimp only
  (repeat' split) <;> simp

@[simp] theorem takeSample_images (j : JunctionNo) (percent : Nat) (e : Event) :
    (takeSample j percent e).steady.images = e.steady.images := by
  unfold takeSample
  dsimp only
  split <;> simp

/-- A fold of operations that keep the images keeps them. -/
theorem foldl_images {α : Type} (f : Event → α → Event) (h : ∀ e x, (f e x).steady.images = e.steady.images) (l : List α) (e : Event) :
    (l.foldl f e).steady.images = e.steady.images := by
  induction l generalizing e with
  | nil => rfl
  | cons x xs ih => exact (ih _).trans (h e x)

@[simp] theorem closeInterval_images (e : Event) : (closeInterval e).steady.images = e.steady.images :=
  foldl_images _ (fun e j => compareLevel_images j e) _ _

/-! ### Anomalies and reliability (R153–R157, R165, R173) -/

@[simp] theorem returnConflict_steady (j : JunctionNo) (preferred : Option Nat) (e : Event) :
    (returnConflict j preferred e).steady = e.steady := by
  unfold returnConflict
  split <;> simp

@[simp] theorem returnMatter_steady (m : Return) (e : Event) : (returnMatter m e).steady = e.steady := by
  unfold returnMatter
  split <;> simp

@[simp] theorem expireReferral_steady (r : Referral) (e : Event) : (expireReferral r e).steady = e.steady := by
  unfold expireReferral
  rw [returnMatter_steady, closeReferral_steady]
  rfl

@[simp] theorem handleRule_steady (x : Ruling) (e : Event) : (handleRule x e).after.steady = e.steady := by
  unfold handleRule
  (repeat' split) <;> simp

@[simp] theorem setTag_steady (a : ApproachNo) (tagged : Bool) (e : Event) : (setTag a tagged e).steady = e.steady := by
  unfold setTag
  dsimp only
  (repeat' split) <;> rfl

@[simp] theorem clearNamed_images (x : FlagSets) (overflow : Bool) (e : Event) :
    (clearNamed x overflow e).steady.images = e.steady.images := rfl

/-! ### Intake and the corridor port (Chapters 2 and 3) -/

@[simp] theorem placeInSlot_images (r : Report) (s : State) : (placeInSlot r s).steady.images = s.steady.images := by
  unfold placeInSlot
  (repeat' split) <;> rfl

@[simp] theorem receiveReport_images (f : RadioFrame) (arrival : Clock) (s : State) :
    (receiveReport f arrival s).steady.images = s.steady.images := by
  unfold receiveReport
  split <;> simp

@[simp] theorem emptySlot_images (k : SlotNo) (s : State) : (emptySlot k s).steady.images = s.steady.images := rfl

@[simp] theorem receiveHandOn_images (h : HandOnFrame) (arrival : Clock) (s : State) :
    (receiveHandOn h arrival s).steady.images = s.steady.images := by
  unfold receiveHandOn
  dsimp only
  (repeat' split) <;> rfl

/-! ### Writes and restarts (R19, R22, R176) -/

@[simp] theorem withdrawDisabled_steady (old new : Image) (e : Event) : (withdrawDisabled old new e).steady = e.steady :=
  foldl_steady _ (fun e a => withdrawApproach_steady a e) _ _

@[simp] theorem junctionEffects_steady (j : JunctionNo) (x : JunctionEntry) (old : Image) (e : Event) :
    (junctionEffects j x old e).steady = e.steady := by
  unfold junctionEffects
  dsimp only
  (repeat' split) <;> simp

/-- The effects of a write on the work in progress leave the image as it has been written (R19 step 6). -/
@[simp] theorem writeEffects_images (w : CheckedWrite) (old : Image) (e : Event) :
    (writeEffects w old e).steady.images = e.steady.images := by
  cases w with
  | approach a x =>
    unfold writeEffects
    dsimp only
    split <;> simp
  | level k x =>
    exact congrArg Steady.images (foldl_steady _ (fun e j => by simp) _ _)
  | parameter n v =>
    unfold writeEffects
    dsimp only
    split <;> rfl
  | _ => simp [writeEffects]

@[simp] theorem coldState_images (img : Image) (stored : StoredImage) (passed : Bool) (s : State) :
    (coldState img stored passed s).steady.images = { working := img, snapshot := none, store := stored } := rfl

/-- The end of a store write ends the commit (R184). -/
@[simp] theorem completeCommit_images (snapshot : Image) (ok : Bool) (e : Event) :
    (completeCommit snapshot ok e).steady.images =
      { working := e.image, snapshot := none,
        store := if ok then { tables := snapshot, word := checkWord snapshot } else damagedStore e.freeIndex } := by
  unfold completeCommit
  rw [offer_steady]
  cases ok <;> rfl

@[simp] theorem warmRestart_images (e : Event) : (warmRestart e).steady.images = e.steady.images := by
  unfold warmRestart
  extract_lets e1 e2
  have h1 : e1.steady = e.steady := foldl_steady _ (fun e j => by simp) _ _
  clear_value e1
  have h2 : e2.steady.images = e1.steady.images := rfl
  rw [offer_steady, h2, h1]

end Sys2Proof.Machine
end

section
/-!
SUPPORT. The images at every step: a property of images that every accepted write keeps holds of every image of the unit at every step (R19, R20, R172,
R180–R184).
-/
namespace Sys2Proof.Machine

/-! ### Commands that leave the images -/

section
variable (s : State)

@[simp] theorem execTakeReport_images : (stateAfter s (execTakeReport s)).steady.images = s.steady.images := by
  unfold execTakeReport
  (repeat' split) <;> simp

@[simp] theorem execTakeHandOn_images : (stateAfter s (execTakeHandOn s)).steady.images = s.steady.images := by
  unfold execTakeHandOn
  split
  · rfl
  · split
    · rfl
    · rw [stateAfter_next, event_images, handleHandOn_steady]
      rfl

@[simp] theorem execStallLimit_images : (stateAfter s (execStallLimit s)).steady.images = s.steady.images := by
  unfold execStallLimit
  split
  · rfl
  · split
    · rw [stateAfter_next, event_images, endStall_steady]
      rfl
    · rfl

@[simp] theorem execMirrorStale_images (j : JunctionNo) :
    (stateAfter s (execMirrorStale j s)).steady.images = s.steady.images := by
  unfold execMirrorStale
  split <;> simp

@[simp] theorem execOccupancy_images (junction percent : Nat) :
    (stateAfter s (execOccupancy junction percent s)).steady.images = s.steady.images := by
  unfold execOccupancy
  dsimp only
  split <;> simp

@[simp] theorem execAck_images (junction : Nat) (tag : Tag) (accepted : Bool) :
    (stateAfter s (execAck junction tag accepted s)).steady.images = s.steady.images := by
  unfold execAck
  dsimp only
  split <;> simp

@[simp] theorem execAckTimeout_images (j : JunctionNo) :
    (stateAfter s (execAckTimeout j s)).steady.images = s.steady.images := by
  unfold execAckTimeout
  (repeat' split) <;> simp

@[simp] theorem execRecoveryDeadline_images (j : JunctionNo) :
    (stateAfter s (execRecoveryDeadline j s)).steady.images = s.steady.images := by
  unfold execRecoveryDeadline
  split <;> simp [endRecovery]

@[simp] theorem execWindowDeadline_images (j : JunctionNo) :
    (stateAfter s (execWindowDeadline j s)).steady.images = s.steady.images := by
  unfold execWindowDeadline
  split <;> simp [closeWindow]

@[simp] theorem execAveragingDeadline_images : (stateAfter s (execAveragingDeadline s)).steady.images = s.steady.images := by
  unfold execAveragingDeadline
  split <;> simp

@[simp] theorem execLeakDeadline_images : (stateAfter s (execLeakDeadline s)).steady.images = s.steady.images := by
  unfold execLeakDeadline
  split <;> rfl

@[simp] theorem execReferralDeadline_images : (stateAfter s (execReferralDeadline s)).steady.images = s.steady.images := by
  unfold execReferralDeadline
  (repeat' split) <;> simp

@[simp] theorem execSupervisorFrameComplete_images :
    (stateAfter s (execSupervisorFrameComplete s)).steady.images = s.steady.images := by
  unfold execSupervisorFrameComplete
  split
  · rfl
  all_goals exact event_images id _

@[simp] theorem execPortFrameComplete_images (p : SendPort) :
    (stateAfter s (execPortFrameComplete p s)).steady.images = s.steady.images := by
  cases p <;> rfl

@[simp] theorem execCorridorClockTick_images : (stateAfter s (execCorridorClockTick s)).steady.images = s.steady.images := by
  have tick (t : State) : t.tick.steady.images = t.steady.images := rfl
  unfold execCorridorClockTick
  split <;> simp [tick]

@[simp] theorem execMarkerByte_images (p : Port) : (stateAfter s (execMarkerByte p s)).steady.images = s.steady.images := by
  unfold execMarkerByte
  split <;> rfl

/-! ### Requests that leave the images -/

@[simp] theorem execReadTrack_images (r : Request Nat) : (stateAfter s (execReadTrack r s)).steady.images = s.steady.images :=
  request_images _ _ _ _ fun v e => by split <;> rfl

@[simp] theorem execReadSet_images (r : Request Nat) : (stateAfter s (execReadSet r s)).steady.images = s.steady.images :=
  request_images _ _ _ _ fun n e => by split <;> rfl

@[simp] theorem execReadJunction_images (r : Request Nat) :
    (stateAfter s (execReadJunction r s)).steady.images = s.steady.images :=
  request_images _ _ _ _ fun n e => by split <;> rfl

@[simp] theorem execReadList_images (r : Request Nat) : (stateAfter s (execReadList r s)).steady.images = s.steady.images :=
  request_images _ _ _ _ fun n e => by split <;> rfl

@[simp] theorem execReadConfig_images (r : Request ConfigRead) :
    (stateAfter s (execReadConfig r s)).steady.images = s.steady.images :=
  request_images _ _ _ _ fun x e => by split <;> rfl

@[simp] theorem execReadConfigSlot_images (r : Request Nat) :
    (stateAfter s (execReadConfigSlot r s)).steady.images = s.steady.images :=
  request_images _ _ _ _ fun n e => by split <;> rfl

@[simp] theorem execReadStatus_images (r : Request Unit) :
    (stateAfter s (execReadStatus r s)).steady.images = s.steady.images :=
  request_images _ _ _ _ fun _ _ => rfl

@[simp] theorem execUnknownRequest_images (kind number : Byte) :
    (stateAfter s (execUnknownRequest kind number s)).steady.images = s.steady.images :=
  request_images _ _ _ _ fun _ _ => rfl

@[simp] theorem execHoldSlot_images (r : Request Nat) : (stateAfter s (execHoldSlot r s)).steady.images = s.steady.images :=
  request_images _ _ _ _ fun n e => by split <;> rfl

@[simp] theorem execReleaseSlot_images (r : Request Unit) :
    (stateAfter s (execReleaseSlot r s)).steady.images = s.steady.images :=
  request_images _ _ _ _ fun _ _ => rfl

@[simp] theorem execWriteConfigSlot_images (r : Request SlotWrite) :
    (stateAfter s (execWriteConfigSlot r s)).steady.images = s.steady.images :=
  request_images _ _ _ _ fun w e => by (repeat' split) <;> rfl

@[simp] theorem execSetGate_images (r : Request GateSetting) :
    (stateAfter s (execSetGate r s)).steady.images = s.steady.images :=
  request_images _ _ _ _ fun x e => by split <;> simp

@[simp] theorem execClearFlags_images (r : Request FlagSets) :
    (stateAfter s (execClearFlags r s)).steady.images = s.steady.images :=
  request_images _ _ _ _ fun x e => clearNamed_images x _ e

@[simp] theorem execClearFault_images (r : Request FaultClear) :
    (stateAfter s (execClearFault r s)).steady.images = s.steady.images :=
  request_images _ _ _ _ fun x e => by split <;> simp

@[simp] theorem execRule_images (r : Request Ruling) : (stateAfter s (execRule r s)).steady.images = s.steady.images :=
  request_images _ _ _ _ fun x e => by split <;> simp

@[simp] theorem execTag_images (r : Request Nat) : (stateAfter s (execTag r s)).steady.images = s.steady.images :=
  request_images _ _ _ _ fun n e => by split <;> simp

@[simp] theorem execUntag_images (r : Request Nat) : (stateAfter s (execUntag r s)).steady.images = s.steady.images :=
  request_images _ _ _ _ fun n e => by split <;> simp

@[simp] theorem execClearJunction_images (r : Request Nat) :
    (stateAfter s (execClearJunction r s)).steady.images = s.steady.images :=
  request_images _ _ _ _ fun n e => by split <;> simp

@[simp] theorem execRestart_images (r : Request Unit) : (stateAfter s (execRestart r s)).steady.images = s.steady.images :=
  request_images _ _ _ _ fun _ e => by simp

@[simp] theorem execLockConfig_images (r : Request Unit) :
    (stateAfter s (execLockConfig r s)).steady.images = s.steady.images :=
  request_images _ _ _ _ fun _ _ => rfl

end

/-! ### Commands that reach the images -/

/-- A property of images that holds of the built-in defaults and that every accepted write keeps (R4, R19, R172). -/
structure KeptByWrites (P : Image → Prop) : Prop where
  defaults : P builtInDefaults
  write (img : Image) (w : ConfigWrite) (c : CheckedWrite) :
    P img → checkWrite w = some c → (applyWrite img c).consistent = true → P (applyWrite img c)
  enables (img : Image) (x : Enables) :
    P img → ({ img with enables := x } : Image).consistent = true → P { img with enables := x }

/-- A store under a word that is kept apart from the one that would match fails its check (R184, log 6). -/
theorem unmatched_fails (i : Nat) (img : Image) : (unmatched i img).passes = false := by
  unfold unmatched StoredImage.passes
  generalize Config.damagedWord i = w
  generalize checkWord img = c
  rw [beq_eq_false_iff_ne]
  dsimp only
  split
  · bv_omega
  · exact Ne.symm ‹_›

section
variable {P : Image → Prop}

/-- A written working image that has the property leaves the others as they are. -/
theorem Images.Satisfy.write {x : Images} (hx : x.Satisfy P) {img : Image} (h : P img) :
    ({ x with working := img } : Images).Satisfy P := { hx with working := h }

theorem handleWrite_satisfy (c : CheckedWrite) (e : Event) (he : e.steady.images.Satisfy P)
    (hc : (applyWrite e.image c).consistent = true → P (applyWrite e.image c)) : (handleWrite c e).after.steady.images.Satisfy P := by
  unfold handleWrite
  dsimp only
  split
  · exact he
  · split
    · rename_i consistent
      rw [writeEffects_images]
      exact he.write (hc consistent)
    · exact he

theorem execWriteConfig_satisfy (hP : KeptByWrites P) (r : Request ConfigWrite) (s : State) (hs : s.steady.images.Satisfy P) :
    (stateAfter s (execWriteConfig r s)).steady.images.Satisfy P :=
  request_keeps (·.Satisfy P) _ _ _ _ hs fun w e he => by
    split
    · split
      · exact he
      · rename_i c hc
        exact handleWrite_satisfy c e he (hP.write _ w c he.working hc)
    · exact he

theorem handleEnables_satisfy (hP : KeptByWrites P) (g : Fin 4) (l : List Nat) (e : Event) (he : e.steady.images.Satisfy P) :
    (handleEnables g l e).after.steady.images.Satisfy P := by
  unfold handleEnables
  split
  · exact he
  · dsimp only
    split
    · rename_i x _ consistent
      rw [accept_after, withdrawDisabled_steady]
      exact he.write (hP.enables _ x he.working consistent)
    · exact he

theorem execSetEnables_satisfy (hP : KeptByWrites P) (r : Request EnablesSetting) (s : State) (hs : s.steady.images.Satisfy P) :
    (stateAfter s (execSetEnables r s)).steady.images.Satisfy P :=
  request_keeps (·.Satisfy P) _ _ _ _ hs fun x e he => by
    split
    · exact he
    · split
      · exact handleEnables_satisfy hP _ _ e he
      · exact he

/-- A commit takes its snapshot from the working image (R183). -/
theorem execCommitConfig_satisfy (r : Request Unit) (s : State) (hs : s.steady.images.Satisfy P) :
    (stateAfter s (execCommitConfig r s)).steady.images.Satisfy P :=
  request_keeps (·.Satisfy P) _ _ _ _ hs fun _ e he => by
    split
    · exact he
    · split
      · exact he
      · exact { he with snapshot := fun _ h => Option.some.inj h ▸ he.working }

/-- A store write ends with the snapshot in the store, or with an image that fails its check (R184). -/
theorem execStoreWriteComplete_satisfy (ok : Bool) (s : State) (hs : s.steady.images.Satisfy P) :
    (stateAfter s (execStoreWriteComplete ok s)).steady.images.Satisfy P := by
  unfold execStoreWriteComplete
  split
  · exact hs
  · rename_i snapshot running
    rw [stateAfter_next, event_images, completeCommit_images]
    refine ⟨hs.working, fun _ h => (nomatch h), ?_⟩
    cases ok with
    | true => exact fun _ => hs.snapshot snapshot running
    | false => simp [damagedStore, unmatched_fails]

/-- The store that a cold start finds holds the property where it passes its check: an interrupted commit has left one that fails it (R181, R184). -/
theorem storeAtStart_satisfy (s : State) (hs : s.steady.images.Satisfy P) (h : (storeAtStart s).passes = true) : P (storeAtStart s).tables := by
  unfold storeAtStart at h ⊢
  cases hc : s.commit with
  | none =>
    rw [hc] at h
    exact hs.store h
  | some snapshot =>
    rw [hc] at h
    exact absurd h (by simp [interruptedStore, unmatched_fails])

theorem execColdStart_satisfy (hP : KeptByWrites P) (s : State) (hs : s.steady.images.Satisfy P) :
    (stateAfter s (execColdStart s)).steady.images.Satisfy P := by
  have store := storeAtStart_satisfy s hs
  unfold execColdStart
  dsimp only
  split
  · rw [stateAfter_next, coldState_images]
    exact ⟨store ‹_›, fun _ h => (nomatch h), store⟩
  · rw [stateAfter_next, coldState_images]
    exact ⟨hP.defaults, fun _ h => (nomatch h), store⟩

/-! ### Every command -/

/-- A frame handed on keeps the property (R186): only the frames of WRITE CONFIG, SET ENABLES and COMMIT CONFIG reach an image. -/
theorem handOn_satisfy (hP : KeptByWrites P) (i : Instr) (arrival : Clock) (s : State) (hs : s.steady.images.Satisfy P) :
    (stateAfter s (handOn i arrival s)).steady.images.Satisfy P := by
  cases i with
  | writeConfig r => exact execWriteConfig_satisfy hP r s hs
  | setEnables r => exact execSetEnables_satisfy hP r s hs
  | commitConfig r => exact execCommitConfig_satisfy r s hs
  | _ => simpa [handOn] using hs

theorem handOnAll_satisfy (hP : KeptByWrites P) (l : List (Instr × Nat)) (s : State) (hs : s.steady.images.Satisfy P) :
    (handOnAll l s).steady.images.Satisfy P := by
  induction l generalizing s with
  | nil => exact hs
  | cons x xs ih => exact ih _ (handOn_satisfy hP x.1 _ s hs)

/-- A frame abandoned keeps the property: so do the frames found among its bytes (R186). -/
theorem abandon_satisfy (hP : KeptByWrites P) (p : Port) (l : List HeardByte) (s : State) (hs : s.steady.images.Satisfy P) :
    (s.abandon p l).steady.images.Satisfy P := by
  have found := handOnAll_satisfy hP (goThrough p 0 l).1 (s.hunt p) hs
  unfold State.abandon
  dsimp only
  split <;> exact found

theorem exec_satisfy (hP : KeptByWrites P) (c : Instr) (s : State) (hs : s.steady.images.Satisfy P) :
    (stateAfter s (exec c s)).steady.images.Satisfy P := by
  cases c with
  | coldStart => exact execColdStart_satisfy hP s hs
  | writeConfig r => exact execWriteConfig_satisfy hP r s hs
  | setEnables r => exact execSetEnables_satisfy hP r s hs
  | commitConfig r => exact execCommitConfig_satisfy r s hs
  | storeWriteComplete ok => exact execStoreWriteComplete_satisfy ok s hs
  | radioReport f =>
    cases f with
    | unfit l => exact abandon_satisfy hP .radio l s hs
    | _ => simpa [exec, execRadioReport] using hs
  | frameTimeout f =>
    simp only [exec, execFrameTimeout]
    split
    · exact hs
    · rw [stateAfter_next]
      split
      · exact abandon_satisfy hP f.port f.bytes s hs
      · exact hs
  | abandonedFrame p why =>
    cases why with
    | length l => exact abandon_satisfy hP p l s hs
    | checkWord l => exact abandon_satisfy hP p l s hs
    | kind => exact hs
    | body => exact hs
  | _ => simpa [exec, execHandOnArrival, execPhaseStatus, execDetectorCall, execStaleDeadline, execExpectDeadline, execDwellDeadline] using hs

/-- A property that every accepted write keeps holds of every image of the unit at every step. -/
theorem step_satisfy (hP : KeptByWrites P) (s t : State) (hs : s.steady.images.Satisfy P) (h : step s = .next t) : t.steady.images.Satisfy P := by
  unfold step at h
  split at h
  · cases h
    exact hs
  · rename_i c rest _
    have := exec_satisfy hP c { s with pending := rest } hs
    rwa [h] at this

end

end Sys2Proof.Machine
end

section
/-!
PROOF. The Corridor Description: the images stay sound (R20), and the thresholds of the levels are ordered by the write that changes one (R18).
-/
namespace Sys2Proof.Machine

/-! ### The ordering clamp (R18) -/

/-- What the ordering clamp makes of a threshold, the one below it given (R18). -/
def raisedAbove (below x : Nat) : Nat := if x ≤ below then min 101 (below + 1) else x

theorem raisedAbove_ordered (below x : Nat) : raisedAbove below x = 101 ∨ below < raisedAbove below x := by
  unfold raisedAbove
  split <;> omega

/-- The ordering clamp writes the two upper thresholds, each above the one below it (R18). -/
theorem orderThresholds_eq (p : Vector Nat 23) :
    orderThresholds p =
      (p.set 16 (raisedAbove (p.get 15) (p.get 16))).set 17 (raisedAbove (raisedAbove (p.get 15) (p.get 16)) (p.get 17)) := rfl

theorem orderThresholds_lo (p : Vector Nat 23) : (orderThresholds p).get 15 = p.get 15 :=
  (vector_get_set _ 17 15 _).trans (vector_get_set _ 16 15 _)

theorem orderThresholds_mid (p : Vector Nat 23) : (orderThresholds p).get 16 = raisedAbove (p.get 15) (p.get 16) :=
  (vector_get_set _ 17 16 _).trans (vector_get_set _ 16 16 _)

theorem orderThresholds_hi (p : Vector Nat 23) :
    (orderThresholds p).get 17 = raisedAbove (raisedAbove (p.get 15) (p.get 16)) (p.get 17) :=
  vector_get_set _ 17 17 _

/-- A write keeps the thresholds ordered: a threshold write orders them, and every other leaves them as they stand (R18). -/
theorem applyWrite_ordered (img : Image) (c : CheckedWrite) (h : img.ordered) : (applyWrite img c).ordered := by
  cases c with
  | parameter n v =>
    cases hn : isThreshold n with
    | true =>
      have hp : (applyWrite img (.parameter n v)).parameters = orderThresholds (img.parameters.set n v) := if_pos hn
      simp only [Image.ordered, Image.thresholdLo, Image.thresholdMid, Image.thresholdHi, Image.parameter, hp, orderThresholds_lo,
        orderThresholds_mid, orderThresholds_hi]
      exact ⟨raisedAbove_ordered _ _, raisedAbove_ordered _ _⟩
    | false =>
      have hp : (applyWrite img (.parameter n v)).parameters = img.parameters.set n v := if_neg (by simp [hn])
      simp only [isThreshold, Bool.or_eq_false_iff, beq_eq_false_iff_ne] at hn
      obtain ⟨⟨h15, h16⟩, h17⟩ := hn
      simpa only [Image.ordered, Image.thresholdLo, Image.thresholdMid, Image.thresholdHi, Image.parameter, hp, vector_get_set,
        if_neg h15, if_neg h16, if_neg h17] using h
  | _ => exact h

/-! ### The images stay sound (R20) -/

theorem sound_keptByWrites : KeptByWrites Image.sound where
  defaults := by decide +kernel
  write img _ c h _ consistent := ⟨consistent, applyWrite_ordered img c h.2⟩
  enables _ _ h consistent := ⟨consistent, h.2⟩

theorem step_keeps_configSound (s t : State) (hs : s.configSound) (h : step s = .next t) : t.configSound :=
  t.configSound_iff.mpr (step_satisfy sound_keptByWrites s t (s.configSound_iff.mp hs) h)

/-- A write that would break a condition of R20 is refused (R19 step 5). -/
theorem writeConfig_inconsistent (s : State) (number : Byte) (w : ConfigWrite) (c : CheckedWrite) (hm : s.marker = false)
    (fits : fitsTable w.values = true) (hc : checkWrite w = some c) (hl : (s.lock && lockBars s.image c) = false)
    (h : (applyWrite s.image c).consistent = false) :
    exec (.writeConfig { number := number, body := some w }) s =
      .next ((s.hunt .supervisor).replied 0x09 number .inconsistent .empty) := by
  refine congrArg Host.Outcome.next (request_refused _ _ _ _ w .inconsistent hm rfl ?_)
  have hl' : ((startEvent (s.hunt .supervisor)).lock && lockBars (startEvent (s.hunt .supervisor)).image c) = false := hl
  have h' : (applyWrite (startEvent (s.hunt .supervisor)).image c).consistent = false := h
  simp only [fits, hc, handleWrite, hl', h', if_true, Bool.false_eq_true, if_false]

/-- SET ENABLES of a group that would break a condition of R20 is refused (R172). -/
theorem setEnables_inconsistent (s : State) (number : Byte) (g : Fin 4) (l : List Nat) (x : Enables) (hm : s.marker = false)
    (hl : l.length = groupSize g) (hx : writeGroup s.image.enables g l = some x)
    (h : ({ s.image with enables := x } : Image).consistent = false) :
    exec (.setEnables { number := number, body := some { group := g.val, switches := l } }) s =
      .next ((s.hunt .supervisor).replied 0x0B number .inconsistent .empty) := by
  refine congrArg Host.Outcome.next (request_refused _ _ _ _ { group := g.val, switches := l } .inconsistent hm rfl ?_)
  have hg : numbered 4 g.val = some g := dif_pos g.isLt
  have hx' : writeGroup (startEvent (s.hunt .supervisor)).image.enables g l = some x := hx
  have h' : ({ (startEvent (s.hunt .supervisor)).image with enables := x } : Image).consistent = false := h
  simp only [hg, hl, handleEnables, hx', h', if_true, Bool.false_eq_true, if_false]

/-- Settles O7: soundness is a property that every accepted write keeps, and `step_satisfy` carries it to every image of the unit. -/
theorem configurationStaysSound : Obligations.ConfigurationStaysSound :=
  ⟨step_keeps_configSound, sound_keptByWrites.defaults, writeConfig_inconsistent, setEnables_inconsistent⟩

/-! ### Threshold writes (R18, R138) -/

theorem isThreshold_iff (n : Fin 23) : isThreshold n = true ↔ n = 15 ∨ n = 16 ∨ n = 17 := by
  simp [isThreshold, or_assoc]

/-- The parameters after a threshold write: the three thresholds, from the one written and the two others as they stood (R18). -/
theorem orderThresholds_set (p : Vector Nat 23) (n : Fin 23) (x : Nat) (hn : isThreshold n = true) :
    let lo := if n.val = 15 then x else p.get 15
    let mid := raisedAbove lo (if n.val = 16 then x else p.get 16)
    let hi := raisedAbove mid (if n.val = 17 then x else p.get 17)
    orderThresholds (p.set n x) = ((p.set 15 lo).set 16 mid).set 17 hi := by
  intro lo mid hi
  have hlo : (p.set n x).get 15 = lo := (vector_get_set p n 15 x).trans (if_congr Fin.ext_iff rfl rfl)
  have hmid : (p.set n x).get 16 = if n.val = 16 then x else p.get 16 := (vector_get_set p n 16 x).trans (if_congr Fin.ext_iff rfl rfl)
  have hhi : (p.set n x).get 17 = if n.val = 17 then x else p.get 17 := (vector_get_set p n 17 x).trans (if_congr Fin.ext_iff rfl rfl)
  rw [orderThresholds_eq, hlo, hmid, hhi]
  rcases (isThreshold_iff n).mp hn with rfl | rfl | rfl
  · rfl
  · have keep : p.set 15 lo = p := Vector.set_getElem_self (by decide)
    show ((p.set 16 x).set 16 mid).set 17 hi = _
    rw [keep, Vector.set_set]
  · have keep : p.set 15 lo = p := Vector.set_getElem_self (by decide)
    show ((p.set 17 x).set 16 mid).set 17 hi = _
    rw [keep, Vector.set_comm x mid (by decide), Vector.set_set]

/-- The value of a threshold write is clamped to 1 to 101 (R16, R19 step 3). -/
theorem checkWrite_threshold (n : Fin 23) (v : Nat) (hn : isThreshold n = true) :
    checkWrite { index := n.val, values := .parameter v } = some (.parameter n (min 101 (max 1 v))) := by
  rcases (isThreshold_iff n).mp hn with rfl | rfl | rfl <;> rfl

/-- The image after a threshold write: the three thresholds, from the one written and the two others as they stood (R18). -/
theorem applyWrite_threshold (img : Image) (n : Fin 23) (x : Nat) (hn : isThreshold n = true) :
    let lo := if n.val = 15 then x else img.thresholdLo
    let mid := raisedAbove lo (if n.val = 16 then x else img.thresholdMid)
    let hi := raisedAbove mid (if n.val = 17 then x else img.thresholdHi)
    applyWrite img (.parameter n x) = { img with parameters := ((img.parameters.set 15 lo).set 16 mid).set 17 hi } := by
  intro lo mid hi
  have parameters : orderThresholds (img.parameters.set n x) = ((img.parameters.set 15 lo).set 16 mid).set 17 hi :=
    orderThresholds_set img.parameters n x hn
  rw [← parameters]
  simp only [applyWrite, hn, if_true]

/-- A threshold write is accepted, since no condition of R20 reads a parameter, and beyond the image it has no effect: no level is compared (R18, R19). -/
theorem handleWrite_threshold (n : Fin 23) (x : Nat) (e : Event) (hn : isThreshold n = true) (hc : e.image.consistent = true) :
    handleWrite (.parameter n x) e =
      { result := .ok, body := fun s => .thresholds s.image.thresholdLo s.image.thresholdMid s.image.thresholdHi
        after := { e with image := applyWrite e.image (.parameter n x) } } := by
  have consistent : (applyWrite e.image (.parameter n x)).consistent = true := hc
  have hn14 : n ≠ 14 := by
    rintro rfl
    cases hn
  simp only [handleWrite, lockBars, Bool.and_false, Bool.false_eq_true, if_false, consistent, if_true, writeEffects, hn14, false_and,
    writtenBody, hn]

/-- A threshold write is answered with the thresholds of the image it leaves (R18). -/
theorem exec_thresholdWrite (s : State) (number : Byte) (n : Fin 23) (v : Nat) (hn : isThreshold n = true) (hm : s.marker = false)
    (hc : s.image.consistent = true) :
    let img := applyWrite s.image (.parameter n (min 101 (max 1 v)))
    exec (.writeConfig { number := number, body := some { index := n.val, values := .parameter v } }) s =
      .next (({ s.hunt .supervisor with image := img } : State).replied 0x09 number .ok
        (.thresholds img.thresholdLo img.thresholdMid img.thresholdHi)) := by
  intro img
  refine congrArg Host.Outcome.next (request_writesImage _ _ _ s { index := n.val, values := .parameter v } img
    (fun s => .thresholds s.image.thresholdLo s.image.thresholdMid s.image.thresholdHi) hm rfl ?_)
  simp only [fitsTable, if_true, checkWrite_threshold n v hn]
  exact handleWrite_threshold n _ _ hn hc

/-- The three thresholds of an image whose thresholds have been set. -/
theorem thresholds_set (img : Image) (lo mid hi : Nat) :
    let new : Image := { img with parameters := ((img.parameters.set 15 lo).set 16 mid).set 17 hi }
    new.thresholdLo = lo ∧ new.thresholdMid = mid ∧ new.thresholdHi = hi :=
  ⟨(vector_get_set _ 17 15 hi).trans ((vector_get_set _ 16 15 mid).trans (vector_get_set _ 15 15 lo)),
    (vector_get_set _ 17 16 hi).trans (vector_get_set _ 16 16 mid), vector_get_set _ 17 17 hi⟩

/-- A level whose threshold is 101 is reached by no average (R138 step 1). -/
theorem risenLevel_ne (img : Image) (l x : Level) (average : Nat) (ha : average ≤ 100) (hx : img.threshold x = 101) :
    risenLevel img l average ≠ some x := by
  have crossed (y : Level) (h : (decide (levelIndex l < levelIndex y) && decide (img.threshold y ≤ average)) = true) : y ≠ x := by
    rintro rfl
    simp only [Bool.and_eq_true, decide_eq_true_eq] at h
    omega
  unfold risenLevel
  dsimp only
  split
  · exact fun h => crossed .hi ‹_› (Option.some.inj h)
  · split
    · exact fun h => crossed .mid ‹_› (Option.some.inj h)
    · split
      · exact fun h => crossed .lo ‹_› (Option.some.inj h)
      · nofun

/-- Settles O39: `exec_thresholdWrite` with the image written out by `applyWrite_threshold`; 101 is above every average. -/
theorem thresholdsAreOrdered : Obligations.ThresholdsAreOrdered := by
  refine ⟨fun s number n v hm hc hn => ?_, fun img l x average ha hx => risenLevel_ne img l x average ha hx⟩
  intro x lo mid0 hi0 mid hi
  obtain ⟨k, rfl, hk⟩ : ∃ k : Fin 23, k.val = n ∧ isThreshold k = true := by
    rcases hn with rfl | rfl | rfl
    · exact ⟨15, rfl, rfl⟩
    · exact ⟨16, rfl, rfl⟩
    · exact ⟨17, rfl, rfl⟩
  obtain ⟨hlo, hmid, hhi⟩ := thresholds_set s.image lo mid hi
  have written : applyWrite s.image (.parameter k x) =
      { s.image with parameters := ((s.image.parameters.set 15 lo).set 16 mid).set 17 hi } := applyWrite_threshold s.image k x hk
  rw [exec_thresholdWrite s number k v hk hm hc, written, hlo, hmid, hhi]

end Sys2Proof.Machine
end

section
/-!
PROOF. Report Intake: a SLOT write sets a slot's code and switches and discards its report, and is refused beyond its ranges (R37, R38).
-/
namespace Sys2Proof.Machine

/-! ### Groups of switches as carried (R188) -/

/-- A switch is read back from its code (R189). -/
theorem switchOf_carried (b : Bool) : switchOf (if b then 1 else 0) = some b := by
  cases b <;> rfl

theorem switchesOf_carried (l : List Bool) : switchesOf (l.map fun b => if b then 1 else 0) = some l := by
  induction l with
  | nil => rfl
  | cons b l ih => simp only [List.map_cons, switchesOf, switchOf_carried, ih, Option.bind_eq_bind, Option.bind_some, Option.pure_def]

theorem switchVector_toList {n : Nat} (v : Vector Bool n) : switchVector n v.toList = v :=
  Vector.ext fun i _ => by simp [switchVector]

/-- A group of switches is read back as it was carried. -/
theorem switchGroup_carried {n : Nat} (v : Vector Bool n) : switchGroup n (v.toList.map fun b => if b then 1 else 0) = some v := by
  rw [switchGroup, switchesOf_carried, Option.map_some, switchVector_toList]

/-! ### The SLOT write (R37) -/

/-- The codes INACTIVE and EMPTY may be written (R37 step 2). -/
theorem writableCode_slotCode (c : SlotCode) (h : c = .inactive ∨ c = .empty) : writableCode (slotCode c) = some c := by
  obtain rfl | rfl := h <;> rfl

/-- No code beyond EMPTY may be written (R37 step 2). -/
theorem writableCode_beyond (c : Nat) (h : 2 ≤ c) : writableCode c = none := by
  obtain ⟨n, rfl⟩ := Nat.exists_eq_add_of_le' h
  rfl

/-- The slot that a valid write makes: its overrun flag stays and its report goes (R37). -/
theorem writtenSlot_valid (index : Nat) (c : SlotCode) (a : Vector Bool 16) (kinds : Vector Bool 6) (x : Slot) (h : c = .inactive ∨ c = .empty) :
    writtenSlot
        { index := index
          code := slotCode c
          approachSwitches := a.toList.map fun b => if b then 1 else 0
          kindSwitches := kinds.toList.map fun b => if b then 1 else 0 } x =
      some { code := c, approachSwitches := a, kindSwitches := kinds, report := none, overrunFlag := x.overrunFlag } := by
  simp only [writtenSlot, writableCode_slotCode c h, switchGroup_carried, Option.bind_eq_bind, Option.bind_some, Option.pure_def]

theorem writtenSlot_beyond (w : SlotWrite) (x : Slot) (h : 2 ≤ w.code) : writtenSlot w x = none := by
  rw [writtenSlot, writableCode_beyond w.code h]
  rfl

theorem numbered_val {n : Nat} (k : Fin n) : numbered n k.val = some k := dif_pos k.isLt

theorem numbered_beyond {n x : Nat} (h : n ≤ x) : numbered n x = none := dif_neg (Nat.not_lt.mpr h)

/-- A request whose owner accepts it and writes the slots alone is answered, and the slots stand as written (R169, R171). -/
theorem request_writesSlots {α : Type} (kind : Byte) (r : Request α) (handle : α → Event → Answer) (s : State) (b : α)
    (slots : Vector Slot 16) (body : ReplyBody) (hm : s.marker = false) (hb : r.body = some b)
    (h : handle b (startEvent (s.hunt .supervisor)) = accept body { startEvent (s.hunt .supervisor) with slots := slots }) :
    request kind r handle s = ({ s.hunt .supervisor with slots := slots } : State).replied kind r.number .ok body := by
  rw [request_answered kind r handle s b hm hb (by rw [h]; exact ⟨rfl, rfl⟩), h]
  rfl

/-- A SLOT write within its ranges replaces its slot (R37). -/
theorem writeConfigSlot_accepted (s : State) (number : Byte) (w : SlotWrite) (k : SlotNo) (x : Slot) (hm : s.marker = false)
    (ha : w.approachSwitches.length = 16) (hk : w.kindSwitches.length = 6) (hi : w.index = k.val)
    (hx : writtenSlot w (s.slots.get k) = some x) :
    exec (.writeConfigSlot { number := number, body := some w }) s =
      .next (({ s.hunt .supervisor with slots := s.slots.set k x } : State).replied 0x09 number .ok
        (.slotConfig x.code x.approachSwitches x.kindSwitches none)) := by
  refine congrArg Host.Outcome.next (request_writesSlots _ _ _ s w (s.slots.set k x) _ hm rfl ?_)
  have written : writtenSlot w ((startEvent (s.hunt .supervisor)).slots.get k) = some x := hx
  simp only [ha, hk, hi, and_self, if_true, numbered_val, written]
  rfl

/-- A SLOT write beyond its ranges is refused with RANGE (R37). -/
theorem writeConfigSlot_range (s : State) (number : Byte) (w : SlotWrite) (hm : s.marker = false) (ha : w.approachSwitches.length = 16)
    (hk : w.kindSwitches.length = 6) (h : 16 ≤ w.index ∨ 2 ≤ w.code) :
    exec (.writeConfigSlot { number := number, body := some w }) s = .next ((s.hunt .supervisor).replied 0x09 number .range .empty) := by
  refine congrArg Host.Outcome.next (request_refused _ _ _ s w .range hm rfl ?_)
  simp only [ha, hk, and_self, if_true]
  obtain index | code := h
  · rw [numbered_beyond index]
  · cases numbered 16 w.index with
    | none => rfl
    | some k => simp only [writtenSlot_beyond w _ code]

/-- Settles O24: the written slot is `writtenSlot_valid`'s, whatever the lock; either range alone refuses the write. -/
theorem slotWritesDiscardTheReport : Obligations.SlotWritesDiscardTheReport := by
  intro s number hm carried
  refine ⟨?_, fun w ha hk h => writeConfigSlot_range s number w hm ha hk h⟩
  intro k code a kinds hcode w
  exact writeConfigSlot_accepted s number w k _ hm (by simp [w, carried]) (by simp [w, carried]) rfl
    (writtenSlot_valid k.val code a kinds (s.slots.get k) hcode)

end Sys2Proof.Machine
end

section
/-!
PROOF. The Track Table: READ TRACK and READ SET show the table as it stands (R40, R67).
-/
namespace Sys2Proof.Machine

/-! ### Lookups (R40) -/

/-- A lookup misses where neither way of the vehicle's set holds it (R40). -/
theorem State.lookup_eq_none (s : State) (v : Nat) (h : ∀ (w : Way) (t : Track), s.track (placeOf v w) = some t → t.vehicle ≠ v) :
    s.lookup v = none := by
  have away (w : Way) : (s.track (placeOf v w)).map (·.vehicle) ≠ some v := fun held => by
    obtain ⟨t, ht, hv⟩ := Option.map_eq_some_iff.mp held
    exact h w t ht hv
  simp [State.lookup, away]

/-- In a table that is placed, the other way of a track's set does not hold the track's vehicle (R40). -/
theorem State.tablePlaced_otherWay {s : State} (hp : s.tablePlaced) {v : Nat} {w : Way} {t : Track} (ht : s.track (placeOf v w) = some t)
    (hv : t.vehicle = v) : (s.track (placeOf v (otherWay w))).map (·.vehicle) ≠ some v := by
  subst hv
  obtain ⟨placed, -⟩ := hp
  exact (placed _ w t ht).2

/-- In a table that is placed, a lookup finds the way that holds the vehicle, whichever of the two it is (R40). -/
theorem State.lookup_placeOf {s : State} (hp : s.tablePlaced) {v : Nat} {w : Way} {t : Track} (ht : s.track (placeOf v w) = some t)
    (hv : t.vehicle = v) : s.lookup v = some (placeOf v w) := by
  have alone := State.tablePlaced_otherWay hp ht hv
  cases w with
  | a => simp [State.lookup, ht, hv]
  | b =>
    rw [show otherWay .b = .a from rfl] at alone
    simp [State.lookup, ht, hv, alone]

/-! ### The two inspections (R67) -/

/-- A request whose owner accepts it and changes nothing is answered with the body it shows (R169, R171). -/
theorem request_shown {α : Type} (kind : Byte) (r : Request α) (handle : α → Event → Answer) (s : State) (b : α) (body : ReplyBody)
    (hm : s.marker = false) (hb : r.body = some b)
    (h : handle b (startEvent (s.hunt .supervisor)) = accept body (startEvent (s.hunt .supervisor))) :
    request kind r handle s = (s.hunt .supervisor).replied kind r.number .ok body := by
  rw [request_answered kind r handle s b hm hb (by rw [h]; exact startEvent_quiet _), h]
  rfl

/-- READ TRACK shows the track that the lookup finds (R67). -/
theorem readTrack_hit (s : State) (number : Byte) (v : Nat) (p : Place) (t : Track) (hm : s.marker = false) (hl : s.lookup v = some p)
    (ht : s.track p = some t) :
    exec (.readTrack { number := number, body := some v }) s = .next ((s.hunt .supervisor).replied 0x02 number .ok (.track t)) := by
  refine congrArg Host.Outcome.next (request_shown _ _ _ s v (.track t) hm rfl ?_)
  have found : ((startEvent (s.hunt .supervisor)).lookup v).bind (startEvent (s.hunt .supervisor)).track = some t :=
    (congrArg (·.bind s.track) hl).trans ht
  simp only [found]

/-- READ TRACK of a vehicle that the lookup misses is answered NOT_FOUND (R67). -/
theorem readTrack_miss (s : State) (number : Byte) (v : Nat) (hm : s.marker = false) (hl : s.lookup v = none) :
    exec (.readTrack { number := number, body := some v }) s = .next ((s.hunt .supervisor).replied 0x02 number .notFound .empty) := by
  refine congrArg Host.Outcome.next (request_refused _ _ _ s v .notFound hm rfl ?_)
  have missed : ((startEvent (s.hunt .supervisor)).lookup v).bind (startEvent (s.hunt .supervisor)).track = none :=
    congrArg (·.bind s.track) hl
  simp only [missed]

/-- READ SET shows both ways of the set and its age bit (R67). -/
theorem readSet_shown (s : State) (number : Byte) (k : SetNo) (hm : s.marker = false) :
    exec (.readSet { number := number, body := some k.val }) s =
      .next ((s.hunt .supervisor).replied 0x03 number .ok (.set (s.sets.get k).a (s.sets.get k).b (s.sets.get k).age)) := by
  refine congrArg Host.Outcome.next (request_shown _ _ _ s k.val _ hm rfl ?_)
  simp only [numbered_val, startEvent_sets, State.hunt_sets]

/-- READ SET of a number beyond the last set is refused with RANGE (R67). -/
theorem readSet_range (s : State) (number : Byte) (n : Nat) (hm : s.marker = false) (h : 32 ≤ n) :
    exec (.readSet { number := number, body := some n }) s = .next ((s.hunt .supervisor).replied 0x03 number .range .empty) := by
  refine congrArg Host.Outcome.next (request_refused _ _ _ s n .range hm rfl ?_)
  simp only [numbered_beyond h]

/-- Settles O18: a placed table's lookup finds the track named, a vehicle that neither way holds is missed, and a set is read by its number. -/
theorem trackTableReads : Obligations.TrackTableReads := fun s number hm =>
  ⟨fun v w t hp ht hv => readTrack_hit s number v (placeOf v w) t hm (State.lookup_placeOf hp ht hv) ht,
    fun v away => readTrack_miss s number v hm (State.lookup_eq_none s v away),
    fun k => readSet_shown s number k hm,
    fun n beyond => readSet_range s number n hm beyond⟩

end Sys2Proof.Machine
end

section
/-!
SUPPORT. The lock of a state: a cold start and LOCK CONFIG are the only commands that reach it (R182), so every other command leaves it as it stands.
-/
namespace Sys2Proof.Machine

/-! ### The end of an event, and requests -/

@[simp] theorem hunt_steadyLock (s : State) (p : Port) : (s.hunt p).steady.lock = s.steady.lock := rfl

/-- An event leaves the lock as its own work leaves it. -/
@[simp] theorem event_lock (f : Event → Event) (s : State) : (event f s).steady.lock = (f (startEvent s)).steady.lock := by
  rw [event_steady]

/-- A request whose owner leaves the lock leaves it: neither the link nor the end of the event reaches it (R169–R171). -/
theorem request_lock {α : Type} (kind : Byte) (r : Request α) (handle : α → Event → Answer) (s : State)
    (h : ∀ b e, (handle b e).after.steady.lock = e.steady.lock) :
    (stateAfter s (.next (request kind r handle s))).steady.lock = s.steady.lock := by
  rw [stateAfter_next]
  cases hm : s.marker with
  | true => rw [request_busy_steady _ _ _ _ hm, hunt_steadyLock]
  | false =>
    cases hb : r.body with
    | none => rw [request_misfit_steady _ _ _ _ hm hb, ← hunt_steadyLock s .supervisor]
    | some b =>
      rw [request_steady _ _ _ _ _ hm hb]
      exact h b (startEvent (s.hunt .supervisor))

/-! ### The owners' work -/

@[simp] theorem setLoad_lock (j : JunctionNo) (x : Load) (e : Event) : (setLoad j x e).steady.lock = e.steady.lock := rfl

@[simp] theorem compareLevel_lock (j : JunctionNo) (e : Event) : (compareLevel j e).steady.lock = e.steady.lock := by
  unfold compareLevel
  dsimp only
  (repeat' split) <;> simp

@[simp] theorem takeSample_lock (j : JunctionNo) (percent : Nat) (e : Event) :
    (takeSample j percent e).steady.lock = e.steady.lock := by
  unfold takeSample
  dsimp only
  split <;> simp

@[simp] theorem closeInterval_lock (e : Event) : (closeInterval e).steady.lock = e.steady.lock := by
  unfold closeInterval
  extract_lets e1 r e2
  have compared : e2.steady.lock = e.steady.lock :=
    List.foldlRecOn (motive := (·.steady.lock = e.steady.lock)) r.1 _ (b := r.2) rfl fun x hx j _ => (compareLevel_lock j x).trans hx
  exact compared

@[simp] theorem completeCommit_lock (snapshot : Image) (ok : Bool) (e : Event) :
    (completeCommit snapshot ok e).steady.lock = e.steady.lock := by
  unfold completeCommit
  rw [offer_steady]
  cases ok <;> rfl

@[simp] theorem warmRestart_lock (e : Event) : (warmRestart e).steady.lock = e.steady.lock := by
  unfold warmRestart
  extract_lets e1 e2
  have reset : e1.steady = e.steady := foldl_steady _ (fun e j => by simp) _ _
  clear_value e1
  have rest : e2.steady.lock = e1.steady.lock := rfl
  rw [offer_steady, rest, reset]

/-- The effects of a write on the work in progress leave the lock (R19 step 6). -/
@[simp] theorem writeEffects_lock (w : CheckedWrite) (old : Image) (e : Event) : (writeEffects w old e).steady.lock = e.steady.lock := by
  cases w with
  | approach a x =>
    unfold writeEffects
    dsimp only
    split <;> simp
  | level k x => exact congrArg Steady.lock (foldl_steady _ (fun e j => by simp) _ _)
  | parameter n v =>
    unfold writeEffects
    dsimp only
    split <;> rfl
  | _ => simp [writeEffects]

@[simp] theorem handleWrite_lock (w : CheckedWrite) (e : Event) : (handleWrite w e).after.steady.lock = e.steady.lock := by
  unfold handleWrite
  dsimp only
  (repeat' split)
  · rfl
  · exact writeEffects_lock w e.image { e with image := applyWrite e.image w }
  · rfl

@[simp] theorem handleEnables_lock (g : Fin 4) (l : List Nat) (e : Event) : (handleEnables g l e).after.steady.lock = e.steady.lock := by
  unfold handleEnables
  dsimp only
  (repeat' split)
  · rfl
  · rw [accept_after, withdrawDisabled_steady]
    rfl
  · rfl

/-! ### Frames that are handed on (R186) -/

@[simp] theorem receiveReport_lock (f : RadioFrame) (arrival : Clock) (s : State) :
    (receiveReport f arrival s).steady.lock = s.steady.lock := by
  unfold receiveReport placeInSlot
  (repeat' split) <;> rfl

@[simp] theorem receiveHandOn_lock (h : HandOnFrame) (arrival : Clock) (s : State) :
    (receiveHandOn h arrival s).steady.lock = s.steady.lock := by
  unfold receiveHandOn
  dsimp only
  (repeat' split) <;> rfl

@[simp] theorem receiveStatus_lock (r : PhaseStatusFrame) (arrival : Clock) (s : State) :
    (receiveStatus r arrival s).steady.lock = s.steady.lock := by
  unfold receiveStatus
  dsimp only
  split <;> simp

@[simp] theorem receiveCall_lock (junction approach presence : Nat) (arrival : Clock) (s : State) :
    (receiveCall junction approach presence arrival s).steady.lock = s.steady.lock := by
  unfold receiveCall
  dsimp only
  split <;> simp

@[simp] theorem execOccupancy_lock (junction percent : Nat) (s : State) :
    (stateAfter s (execOccupancy junction percent s)).steady.lock = s.steady.lock := by
  unfold execOccupancy
  dsimp only
  split <;> simp

@[simp] theorem execAck_lock (junction : Nat) (tag : Tag) (accepted : Bool) (s : State) :
    (stateAfter s (execAck junction tag accepted s)).steady.lock = s.steady.lock := by
  unfold execAck
  dsimp only
  split <;> simp

/-- A frame handed on leaves the lock, unless it is a LOCK CONFIG (R182). -/
theorem handOn_lock (i : Instr) (arrival : Clock) (s : State) (h : ∀ r, i ≠ .lockConfig r) :
    (stateAfter s (handOn i arrival s)).steady.lock = s.steady.lock := by
  cases i with
  | radioReport f => exact receiveReport_lock f arrival s
  | handOnArrival x => exact receiveHandOn_lock x arrival s
  | phaseStatus x => exact receiveStatus_lock x arrival s
  | occupancy junction percent => exact execOccupancy_lock junction percent s
  | detectorCall junction approach presence => exact receiveCall_lock junction approach presence arrival s
  | ack junction tag accepted => exact execAck_lock junction tag accepted s
  | readStatus r => exact request_lock _ _ _ _ fun _ _ => rfl
  | unknownRequest kind number => exact request_lock _ _ _ _ fun _ _ => rfl
  | readTrack r => exact request_lock _ _ _ _ fun v e => by split <;> rfl
  | readSet r => exact request_lock _ _ _ _ fun n e => by split <;> rfl
  | readJunction r => exact request_lock _ _ _ _ fun n e => by split <;> rfl
  | readList r => exact request_lock _ _ _ _ fun n e => by split <;> rfl
  | holdSlot r => exact request_lock _ _ _ _ fun n e => by split <;> rfl
  | releaseSlot r => exact request_lock _ _ _ _ fun _ _ => rfl
  | readConfig r => exact request_lock _ _ _ _ fun x e => by split <;> rfl
  | readConfigSlot r => exact request_lock _ _ _ _ fun n e => by split <;> rfl
  | writeConfig r => exact request_lock _ _ _ _ fun w e => by (repeat' split) <;> simp
  | writeConfigSlot r => exact request_lock _ _ _ _ fun w e => by (repeat' split) <;> rfl
  | setGate r => exact request_lock _ _ _ _ fun x e => by split <;> simp
  | setEnables r => exact request_lock _ _ _ _ fun x e => by (repeat' split) <;> simp
  | clearFlags r => exact request_lock _ _ _ _ fun _ _ => rfl
  | clearFault r => exact request_lock _ _ _ _ fun x e => by split <;> simp
  | rule r => exact request_lock _ _ _ _ fun x e => by split <;> simp
  | tag r => exact request_lock _ _ _ _ fun n e => by split <;> simp
  | untag r => exact request_lock _ _ _ _ fun n e => by split <;> simp
  | clearJunction r => exact request_lock _ _ _ _ fun n e => by split <;> simp
  | restart r => exact request_lock _ _ _ _ fun _ e => warmRestart_lock e
  | commitConfig r => exact request_lock _ _ _ _ fun _ e => by (repeat' split) <;> rfl
  | lockConfig r => exact absurd rfl (h r)
  | _ => rfl

theorem handOnAll_lock (l : List (Instr × Nat)) (s : State) (h : ∀ r age, (.lockConfig r, age) ∉ l) :
    (handOnAll l s).steady.lock = s.steady.lock := by
  induction l generalizing s with
  | nil => rfl
  | cons x xs ih =>
    obtain ⟨i, age⟩ := x
    have first : ∀ r, i ≠ .lockConfig r := fun r hi => h r age (hi ▸ List.mem_cons_self)
    exact (ih _ fun r a hx => h r a (List.mem_cons_of_mem _ hx)).trans (handOn_lock i _ s first)

/-- A frame abandoned leaves the lock where no LOCK CONFIG is found among its bytes (R186). -/
theorem abandon_lock (p : Port) (l : List HeardByte) (s : State) (h : ∀ r age, (.lockConfig r, age) ∉ (goThrough p 0 l).1) :
    (s.abandon p l).steady.lock = s.steady.lock := by
  have found := handOnAll_lock (goThrough p 0 l).1 (s.hunt p) h
  unfold State.abandon
  dsimp only
  split <;> exact found

/-! ### Expiries, takes and the ends of frames -/

section
variable (s : State)

@[simp] theorem execTakeReport_lock : (stateAfter s (execTakeReport s)).steady.lock = s.steady.lock := by
  unfold execTakeReport
  (repeat' split)
  · rfl
  · rfl
  · rfl
  · rw [stateAfter_next, event_lock, screenReport_steady]
    rfl

@[simp] theorem execTakeHandOn_lock : (stateAfter s (execTakeHandOn s)).steady.lock = s.steady.lock := by
  unfold execTakeHandOn
  (repeat' split)
  · rfl
  · rfl
  · rw [stateAfter_next, event_lock, handleHandOn_steady]
    rfl

@[simp] theorem execStallLimit_lock : (stateAfter s (execStallLimit s)).steady.lock = s.steady.lock := by
  unfold execStallLimit
  (repeat' split)
  · rfl
  · rw [stateAfter_next, event_lock, endStall_steady]
    rfl
  · rfl

@[simp] theorem execMirrorStale_lock (j : JunctionNo) : (stateAfter s (execMirrorStale j s)).steady.lock = s.steady.lock := by
  unfold execMirrorStale
  split <;> simp

@[simp] theorem execAckTimeout_lock (j : JunctionNo) : (stateAfter s (execAckTimeout j s)).steady.lock = s.steady.lock := by
  unfold execAckTimeout
  (repeat' split) <;> simp

@[simp] theorem execRecoveryDeadline_lock (j : JunctionNo) :
    (stateAfter s (execRecoveryDeadline j s)).steady.lock = s.steady.lock := by
  unfold execRecoveryDeadline
  split <;> simp [endRecovery]

@[simp] theorem execWindowDeadline_lock (j : JunctionNo) :
    (stateAfter s (execWindowDeadline j s)).steady.lock = s.steady.lock := by
  unfold execWindowDeadline
  split <;> simp [closeWindow]

@[simp] theorem execAveragingDeadline_lock : (stateAfter s (execAveragingDeadline s)).steady.lock = s.steady.lock := by
  unfold execAveragingDeadline
  split <;> simp

@[simp] theorem execLeakDeadline_lock : (stateAfter s (execLeakDeadline s)).steady.lock = s.steady.lock := by
  unfold execLeakDeadline
  split <;> rfl

@[simp] theorem execReferralDeadline_lock : (stateAfter s (execReferralDeadline s)).steady.lock = s.steady.lock := by
  unfold execReferralDeadline
  (repeat' split) <;> simp

@[simp] theorem execStoreWriteComplete_lock (ok : Bool) :
    (stateAfter s (execStoreWriteComplete ok s)).steady.lock = s.steady.lock := by
  unfold execStoreWriteComplete
  split <;> simp

@[simp] theorem execSupervisorFrameComplete_lock :
    (stateAfter s (execSupervisorFrameComplete s)).steady.lock = s.steady.lock := by
  unfold execSupervisorFrameComplete
  split
  · rfl
  all_goals exact event_lock id _

@[simp] theorem execPortFrameComplete_lock (p : SendPort) :
    (stateAfter s (execPortFrameComplete p s)).steady.lock = s.steady.lock := by
  cases p <;> rfl

@[simp] theorem execCorridorClockTick_lock : (stateAfter s (execCorridorClockTick s)).steady.lock = s.steady.lock := by
  have tick (t : State) : t.tick.steady.lock = t.steady.lock := rfl
  unfold execCorridorClockTick
  split <;> simp [tick]

@[simp] theorem execMarkerByte_lock (p : Port) : (stateAfter s (execMarkerByte p s)).steady.lock = s.steady.lock := by
  unfold execMarkerByte
  split <;> rfl

end

/-! ### Every command -/

/-- A command that runs no LOCK CONFIG abandons no frame among whose bytes one is found (R186). -/
theorem notFound_of_not_runs {s : State} {p : Port} {l : List HeardByte} {c : Instr} (ha : Abandons s p l c)
    (hr : ∀ r, ¬ Runs c (.lockConfig r)) (r : Request Unit) (age : Nat) : (.lockConfig r, age) ∉ (goThrough p 0 l).1 :=
  fun whole => hr r (.found s p l c _ ha age whole)

/-- Only a cold start and a LOCK CONFIG, which may be found in a frame abandoned, reach the lock (R182, R186). -/
theorem exec_lock (c : Instr) (s : State) (hc : c ≠ .coldStart) (hr : ∀ r, ¬ Runs c (.lockConfig r)) :
    (stateAfter s (exec c s)).steady.lock = s.steady.lock := by
  have handed : ∀ r, c ≠ .lockConfig r := by
    rintro r rfl
    exact hr r (.self _)
  cases c with
  | coldStart => exact absurd rfl hc
  | radioReport f =>
    cases f with
    | unfit l => exact abandon_lock .radio l s (notFound_of_not_runs (s := s) (.report rfl) hr)
    | misfit => exact receiveReport_lock .misfit s.clock s
    | unknownKind code => exact receiveReport_lock (.unknownKind code) s.clock s
    | report vehicle approach body => exact receiveReport_lock (.report vehicle approach body) s.clock s
  | frameTimeout f =>
    simp only [exec, execFrameTimeout]
    split
    · rfl
    · rename_i marker inFrame
      rw [stateAfter_next]
      split
      · rename_i due
        exact abandon_lock f.port f.bytes s (notFound_of_not_runs (.late marker inFrame due) hr)
      · rfl
  | abandonedFrame p why =>
    cases why with
    | length l => exact abandon_lock p l s (notFound_of_not_runs (s := s) .length hr)
    | checkWord l => exact abandon_lock p l s (notFound_of_not_runs (s := s) .checkWord hr)
    | kind => rfl
    | body => rfl
  | takeReport => exact execTakeReport_lock s
  | takeHandOn => exact execTakeHandOn_lock s
  | stallLimit => exact execStallLimit_lock s
  | mirrorStale j => exact execMirrorStale_lock s j
  | ackTimeout j => exact execAckTimeout_lock s j
  | recoveryDeadline j => exact execRecoveryDeadline_lock s j
  | windowDeadline j => exact execWindowDeadline_lock s j
  | averagingDeadline => exact execAveragingDeadline_lock s
  | leakDeadline => exact execLeakDeadline_lock s
  | staleDeadline k w => simp [exec, execStaleDeadline]
  | expectDeadline k w => simp [exec, execExpectDeadline]
  | dwellDeadline k w => simp [exec, execDwellDeadline]
  | referralDeadline => exact execReferralDeadline_lock s
  | storeWriteComplete ok => exact execStoreWriteComplete_lock s ok
  | supervisorFrameComplete => exact execSupervisorFrameComplete_lock s
  | portFrameComplete p => exact execPortFrameComplete_lock s p
  | corridorClockTick => exact execCorridorClockTick_lock s
  | markerByte p => exact execMarkerByte_lock s p
  | _ => exact handOn_lock _ s.clock s handed

end Sys2Proof.Machine
end

section
/-!
SUPPORT. The answer to a request, whatever its owner has started: the evaluations of the junctions come first, and the orders of the event go to the signal
transmitter beside the reply (R102, R171, R186). So the result of a request is the one its owner gives.
-/
namespace Sys2Proof.Machine

/-! ### Replies and orders -/

/-- A reply that has been placed: the transmitter begins the answer whose request arrived first (R179), whatever else the event holds. -/
theorem beginSupervisor_placeReply (kind number : Byte) (a : Answer) (e : Event) :
    beginSupervisor (placeReply kind number a e) =
      { e with toState := e.toState.replied kind number a.result (a.bodyAt e.toState) } := by
  let placed := placeReply kind number a e
  cases hf : e.supervisorFrame with
  | some f =>
    rw [beginSupervisor_busy placed f hf, replied_busy _ _ _ _ _ f hf]
    rfl
  | none =>
    cases hb : e.busyList with
    | nil =>
      rw [beginSupervisor_reply placed _ hf rfl hb, replied_idle _ _ _ _ _ hf hb]
      rfl
    | cons b rest =>
      have behind : ∀ r, placed.replySlot = some r → r.ahead ≠ 0 := by
        intro r hr
        cases hr
        simp [hb]
      rw [beginSupervisor_answer placed b rest hf behind hb, replied_behind _ _ _ _ _ b rest hf hb]
      simp [placed, beginFrame, placeReply, hb]

/-- The signal and the supervisor transmitter do not meet: an order taken beside a reply is the order taken before it. -/
theorem takeOrderFrame_replied (kind number : Byte) (result : Result) (body : ReplyBody) (s : State) (o : SentOrder) :
    takeOrderFrame (s.replied kind number result body) o = (takeOrderFrame s o).replied kind number result body := by
  unfold State.replied takeOrderFrame
  (repeat' split) <;> simp_all

/-- The orders of an event and its reply end it side by side (R179, R186). -/
theorem finish_placeReply_orders (kind number : Byte) (a : Answer) (e : Event) (h : e.triggered = .replicate 4 false) :
    finish (placeReply kind number a e) = (transmitOrders e).replied kind number a.result (a.bodyAt e.toState) := by
  rw [finish, settle_quiet (placeReply kind number a e) h, beginSupervisor_placeReply, settle_quiet _ (by exact h)]
  exact List.foldl_hom (State.replied kind number a.result (a.bodyAt e.toState)) fun s o => takeOrderFrame_replied _ _ _ _ s o

/-! ### The result of a request -/

/-- A request that is handled is answered with its owner's result, after the evaluations that its owner's work has triggered (R102, R169–R171). -/
theorem request_replied {α : Type} (kind : Byte) (r : Request α) (handle : α → Event → Answer) (s : State) (b : α)
    (hm : s.marker = false) (hb : r.body = some b) :
    let a := handle b (startEvent (s.hunt .supervisor))
    request kind r handle s =
      (transmitOrders (settle a.after)).replied kind r.number a.result (a.bodyAt (settle a.after).toState) := by
  simp only [request, hm, hb, Bool.false_eq_true, if_false]
  exact finish_placeReply_orders _ _ _ _ rfl

/-- A request that its owner accepts is answered OK, and what the owner did stands, where its work has triggered no junction (R169, R171). -/
theorem request_accepted {α : Type} (kind : Byte) (r : Request α) (handle : α → Event → Answer) (s : State) (b : α) (after : Event)
    (body : ReplyBody) (hm : s.marker = false) (hb : r.body = some b)
    (h : handle b (startEvent (s.hunt .supervisor)) = accept body after) (hq : after.quiet) :
    request kind r handle s = after.toState.replied kind r.number .ok body := by
  rw [request_answered kind r handle s b hm hb (by rw [h]; exact hq), h]
  rfl

/-- A reply other than LOCKED. -/
def AnsweredUnlocked (kind number : Byte) (o : Host.Outcome State Fault Refusal) : Prop :=
  ∃ (v : State) (result : Result) (b : ReplyBody), result ≠ .locked ∧ o = .next (v.replied kind number result b)

/-- A request whose owner does not answer LOCKED is not answered LOCKED. -/
theorem request_answeredUnlocked {α : Type} {kind k n : Byte} (r : Request α) (handle : α → Event → Answer) (s : State)
    (hm : s.marker = false) (fits : some (kind, r.number, r.body.isSome) = some (k, n, true))
    (h : ∀ b e, r.body = some b → (handle b e).result ≠ .locked) :
    AnsweredUnlocked k n (.next (request kind r handle s)) := by
  simp only [Option.some.injEq, Prod.mk.injEq, Option.isSome_iff_exists] at fits
  obtain ⟨rfl, rfl, b, hb⟩ := fits
  exact ⟨_, _, _, h b _ hb, congrArg Host.Outcome.next (request_replied kind r handle s b hm hb)⟩

end Sys2Proof.Machine
end

section
/-!
PROOF. The Configuration Store: the configuration lock (R182).
-/
namespace Sys2Proof.Machine

/-! ### What the lock bars -/

/-- The lock bars no write but one to the PHASE table (R182). -/
theorem lockBars_eq_false (img : Image) (w : CheckedWrite) (h : ∀ k e, w ≠ .phase k e) : lockBars img w = false := by
  cases w with
  | phase k e => exact absurd rfl (h k e)
  | _ => rfl

theorem lockBars_phase_iff (img : Image) (k : Fin 32) (e : PhaseEntry) :
    lockBars img (.phase k e) = false ↔
      e.minGreen = (img.phases.get k).minGreen ∧ e.clearance = (img.phases.get k).clearance ∧
        e.maxExtension = (img.phases.get k).maxExtension ∧ e.guarded = (img.phases.get k).guarded := by
  simp [lockBars, and_assoc]

/-- A write that is checked as one to the PHASE table carries a PHASE entry (R19). -/
theorem checkWrite_phase {w : ConfigWrite} {k : Fin 32} {e : PhaseEntry} (h : checkWrite w = some (.phase k e)) :
    ∃ split minGreen clearance maxExtension guarded, w.values = .phase split minGreen clearance maxExtension guarded := by
  obtain ⟨index, values⟩ := w
  cases values with
  | phase split minGreen clearance maxExtension guarded => exact ⟨_, _, _, _, _, rfl⟩
  | _ => simp [checkWrite, Option.bind_eq_some_iff] at h

theorem checkWrite_phase_carried (k : Fin 32) (split minGreen clearance maxExtension : Nat) (guarded : Bool) :
    checkWrite { index := k.val, values := .phase split minGreen clearance maxExtension (if guarded then 1 else 0) } =
      some (.phase k (clampPhase split minGreen clearance maxExtension guarded)) := by
  simp only [checkWrite, numbered_val, switchOf_carried, Option.bind_eq_bind, Option.bind_some, Option.pure_def]

/-- A write that the lock does not bar is not answered LOCKED. -/
theorem handleWrite_notLocked (w : CheckedWrite) (e : Event) (h : lockBars e.image w = false) : (handleWrite w e).result ≠ .locked := by
  unfold handleWrite
  simp only [h, Bool.and_false, Bool.false_eq_true, if_false]
  split <;> nofun

/-- A write that the lock bars is refused with LOCKED (R19 step 4). -/
theorem writeConfig_locked (s : State) (number : Byte) (w : ConfigWrite) (c : CheckedWrite) (hm : s.marker = false)
    (fits : fitsTable w.values = true) (hc : checkWrite w = some c) (hl : s.lock = true) (hb : lockBars s.image c = true) :
    exec (.writeConfig { number := number, body := some w }) s = .next ((s.hunt .supervisor).replied 0x09 number .locked .empty) := by
  refine congrArg Host.Outcome.next (request_refused _ _ _ _ w .locked hm rfl ?_)
  have barred : ((startEvent (s.hunt .supervisor)).lock && lockBars (startEvent (s.hunt .supervisor)).image c) = true := by
    rw [startEvent_lock, startEvent_image, State.hunt_lock, State.hunt_image, hl, hb, Bool.and_self]
  simp only [fits, hc, handleWrite, barred, if_true]

/-- A PHASE write that the lock does not bar is accepted, since no condition of R20 reads a PHASE entry, and answered with the entry as stored (R19). -/
theorem writeConfig_phase (s : State) (number : Byte) (w : ConfigWrite) (k : Fin 32) (e : PhaseEntry) (hm : s.marker = false)
    (fits : fitsTable w.values = true) (hw : checkWrite w = some (.phase k e)) (hl : (s.lock && lockBars s.image (.phase k e)) = false)
    (hc : s.image.consistent = true) :
    exec (.writeConfig { number := number, body := some w }) s =
      .next (({ s.hunt .supervisor with image := { s.image with phases := s.image.phases.set k e } } : State).replied 0x09 number .ok
        (.entry (.phase e))) := by
  refine congrArg Host.Outcome.next ((request_writesImage _ _ _ s w (applyWrite s.image (.phase k e))
    (fun s => writtenBody s.image (.phase k e)) hm rfl ?_).trans ?_)
  · have free : ((startEvent (s.hunt .supervisor)).lock && lockBars (startEvent (s.hunt .supervisor)).image (.phase k e)) = false := hl
    have consistent : (applyWrite (startEvent (s.hunt .supervisor)).image (.phase k e)).consistent = true := hc
    simp only [fits, hw, handleWrite, free, consistent, if_true, Bool.false_eq_true, if_false, writeEffects]
    rfl
  · have written : (s.image.phases.set k e).get k = e := by simp
    simp only [applyWrite, writtenBody, written]

/-! ### The two commands that the lock is about (R182, R183) -/

theorem lockConfig_answered (s : State) (number : Byte) (hm : s.marker = false) :
    exec (.lockConfig { number := number, body := some () }) s =
      .next (({ s.hunt .supervisor with lock := true } : State).replied 0x14 number .ok (.lock true)) :=
  congrArg Host.Outcome.next (request_accepted _ _ _ s () { startEvent (s.hunt .supervisor) with lock := true } _ hm rfl rfl ⟨rfl, rfl⟩)

/-- A cold start clears the lock (R182). -/
theorem execColdStart_lock (s t : State) (h : execColdStart s = .next t) : t.lock = false := by
  unfold execColdStart at h
  dsimp only at h
  split at h
  all_goals
    cases h
    rfl

theorem commitConfig_locked (s : State) (number : Byte) (hm : s.marker = false) (hl : s.lock = true) :
    exec (.commitConfig { number := number, body := some () }) s = .next ((s.hunt .supervisor).replied 0x13 number .locked .empty) := by
  refine congrArg Host.Outcome.next (request_refused _ _ _ s () .locked hm rfl ?_)
  simp only [startEvent_lock, State.hunt_lock, hl, if_true]

/-! ### The other requests -/

/-- A WRITE CONFIG to a table other than PHASE is not answered LOCKED (R182). -/
theorem writeConfig_answeredUnlocked (r : Request ConfigWrite) (s : State) (kind number : Byte) (hm : s.marker = false)
    (fits : some (0x09, r.number, r.body.isSome) = some (kind, number, true))
    (hw : ∀ w, r.body = some w → ∀ split minGreen clearance maxExtension guarded,
      w.values ≠ .phase split minGreen clearance maxExtension guarded) :
    AnsweredUnlocked kind number (exec (.writeConfig r) s) :=
  request_answeredUnlocked r _ s hm fits fun w e hb => by
    split
    · split
      · nofun
      · rename_i c hc
        refine handleWrite_notLocked c e (lockBars_eq_false _ _ ?_)
        rintro k x rfl
        obtain ⟨split, minGreen, clearance, maxExtension, guarded, phase⟩ := checkWrite_phase hc
        exact hw w hb _ _ _ _ _ phase
    · nofun

theorem accept_notLocked (b : ReplyBody) (e : Event) : (accept b e).result ≠ .locked := nofun

theorem handleEnables_notLocked (g : Fin 4) (l : List Nat) (e : Event) : (handleEnables g l e).result ≠ .locked := by
  unfold handleEnables
  dsimp only
  (repeat' split) <;> nofun

theorem handleRule_notLocked (x : Ruling) (e : Event) : (handleRule x e).result ≠ .locked := by
  unfold handleRule
  (repeat' split) <;> nofun

theorem writeGate_notLocked (j : JunctionNo) (g : Gate) (e : Event) : (writeGate j g e).result ≠ .locked := by
  unfold writeGate
  dsimp only
  split <;> nofun

/-- No request is answered LOCKED but a COMMIT CONFIG and a WRITE CONFIG to the PHASE table (R182). -/
theorem exec_answeredUnlocked (c : Instr) (kind number : Byte) (s : State) (hreq : requestOf c = some (kind, number, true))
    (hm : s.marker = false) (hc : ∀ r, c ≠ .commitConfig r)
    (hw : ∀ n i split minGreen clearance maxExtension guarded,
      c ≠ .writeConfig { number := n, body := some { index := i, values := .phase split minGreen clearance maxExtension guarded } }) :
    AnsweredUnlocked kind number (exec c s) := by
  cases c with
  | readStatus r => exact request_answeredUnlocked r _ s hm hreq fun _ _ _ => accept_notLocked _ _
  | readTrack r => exact request_answeredUnlocked r _ s hm hreq fun v e _ => by split <;> nofun
  | readSet r => exact request_answeredUnlocked r _ s hm hreq fun n e _ => by split <;> nofun
  | readJunction r => exact request_answeredUnlocked r _ s hm hreq fun n e _ => by split <;> nofun
  | readList r => exact request_answeredUnlocked r _ s hm hreq fun n e _ => by split <;> nofun
  | holdSlot r => exact request_answeredUnlocked r _ s hm hreq fun n e _ => by split <;> nofun
  | releaseSlot r => exact request_answeredUnlocked r _ s hm hreq fun _ _ _ => accept_notLocked _ _
  | readConfig r => exact request_answeredUnlocked r _ s hm hreq fun x e _ => by split <;> nofun
  | readConfigSlot r => exact request_answeredUnlocked r _ s hm hreq fun n e _ => by split <;> nofun
  | writeConfig r =>
    refine writeConfig_answeredUnlocked r s kind number hm hreq ?_
    rintro ⟨index, values⟩ hb split minGreen clearance maxExtension guarded rfl
    obtain ⟨n, body⟩ := r
    subst hb
    exact hw n index split minGreen clearance maxExtension guarded rfl
  | writeConfigSlot r => exact request_answeredUnlocked r _ s hm hreq fun w e _ => by (repeat' split) <;> nofun
  | setGate r =>
    refine request_answeredUnlocked r _ s hm hreq fun x e _ => ?_
    split
    · exact writeGate_notLocked _ _ e
    · nofun
  | setEnables r =>
    refine request_answeredUnlocked r _ s hm hreq fun x e _ => ?_
    (repeat' split)
    · nofun
    · exact handleEnables_notLocked _ _ e
    · nofun
  | clearFlags r => exact request_answeredUnlocked r _ s hm hreq fun x e _ => (by decide : Result.ok ≠ .locked)
  | clearFault r => exact request_answeredUnlocked r _ s hm hreq fun x e _ => by split <;> nofun
  | rule r =>
    refine request_answeredUnlocked r _ s hm hreq fun x e _ => ?_
    split
    · nofun
    · exact handleRule_notLocked x e
  | tag r => exact request_answeredUnlocked r _ s hm hreq fun n e _ => by split <;> nofun
  | untag r => exact request_answeredUnlocked r _ s hm hreq fun n e _ => by split <;> nofun
  | clearJunction r => exact request_answeredUnlocked r _ s hm hreq fun n e _ => by split <;> nofun
  | restart r => exact request_answeredUnlocked r _ s hm hreq fun _ _ _ => accept_notLocked _ _
  | lockConfig r => exact request_answeredUnlocked r _ s hm hreq fun _ _ _ => accept_notLocked _ _
  | commitConfig r => exact absurd rfl (hc r)
  | _ => nomatch hreq

/-- Settles O58: `exec_lock` for the commands that leave the lock, `lockBars_phase_iff` for what it bars of a PHASE write, and `exec_answeredUnlocked` for
the requests it does not bar. -/
theorem lockBarsPhasesAndCommits : Obligations.LockBarsPhasesAndCommits := by
  refine ⟨lockConfig_answered, execColdStart_lock, ?others, ?phase, commitConfig_locked, exec_answeredUnlocked⟩
  case others =>
    intro c s t hc hr h
    have kept : (stateAfter s (exec c s)).lock = s.lock := exec_lock c s hc hr
    rwa [h] at kept
  case phase =>
    intro s number k split minGreen clearance maxExtension guarded hm e old splitAlone w c
    have hw : checkWrite { index := k.val, values := w } = some (.phase k e) := checkWrite_phase_carried k _ _ _ _ guarded
    have free : lockBars s.image (.phase k e) = false ↔ splitAlone := lockBars_phase_iff s.image k e
    refine ⟨fun hl more => ?_, fun allowed hc => ?_⟩
    · exact writeConfig_locked s number _ _ hm rfl hw hl (eq_true_of_ne_false (mt free.mp more))
    · refine writeConfig_phase s number _ k e hm rfl hw ?_ hc
      obtain unlocked | alone := allowed
      · rw [unlocked, Bool.false_and]
      · rw [free.mpr alone, Bool.and_false]

end Sys2Proof.Machine
end

section
/-!
PROOF. The Configuration Store: COMMIT CONFIG and its snapshot (R183).
-/
namespace Sys2Proof.Machine

/-! ### COMMIT CONFIG -/

/-- With the lock clear a COMMIT CONFIG that finds a commit running is BUSY (R183). -/
theorem commitConfig_busy (s : State) (number : Byte) (hm : s.marker = false) (hl : s.lock = false) (hc : s.commit ≠ none) :
    exec (.commitConfig { number := number, body := some () }) s = .next ((s.hunt .supervisor).replied 0x13 number .busy .empty) := by
  refine congrArg Host.Outcome.next (request_refused _ _ _ s () .busy hm rfl ?_)
  simp only [startEvent_lock, State.hunt_lock, hl, startEvent_commit, State.hunt_commit, Option.isSome_iff_ne_none.mpr hc,
    Bool.false_eq_true, if_false, if_true]

/-- Otherwise it takes a snapshot of the working image as it stands (R183). -/
theorem commitConfig_accepted (s : State) (number : Byte) (hm : s.marker = false) (hl : s.lock = false) (hc : s.commit = none) :
    exec (.commitConfig { number := number, body := some () }) s =
      .next (({ s.hunt .supervisor with commit := some s.image, condition := .writing } : State).replied 0x13 number .ok .empty) := by
  let e := startEvent (s.hunt .supervisor)
  have free : ¬ e.lock = true := ne_true_of_eq_false hl
  have idle : ¬ e.commit.isSome = true := mt Option.isSome_iff_ne_none.mp (not_not.mpr hc)
  exact congrArg Host.Outcome.next (request_accepted _ _ _ s () { e with commit := some s.image, condition := .writing } .empty hm rfl
    ((if_neg free).trans (if_neg idle)) ⟨rfl, rfl⟩)

/-! ### While the commit runs -/

/-- The effects of a write leave the snapshot of a running commit (R183). -/
theorem handleWrite_snapshot (w : CheckedWrite) (e : Event) :
    (handleWrite w e).after.steady.images.snapshot = e.steady.images.snapshot := by
  unfold handleWrite
  dsimp only
  (repeat' split)
  · rfl
  · rw [writeEffects_images]
    rfl
  · rfl

theorem handleEnables_snapshot (g : Fin 4) (l : List Nat) (e : Event) :
    (handleEnables g l e).after.steady.images.snapshot = e.steady.images.snapshot := by
  unfold handleEnables
  dsimp only
  (repeat' split)
  · rfl
  · rw [accept_after, withdrawDisabled_steady]
    rfl
  · rfl

theorem execWriteConfig_snapshot (r : Request ConfigWrite) (s : State) :
    (stateAfter s (execWriteConfig r s)).steady.images.snapshot = s.steady.images.snapshot :=
  request_keeps (·.snapshot = s.steady.images.snapshot) _ _ _ _ rfl fun w e he => by
    (repeat' split)
    · exact he
    · exact (handleWrite_snapshot _ e).trans he
    · exact he

theorem execSetEnables_snapshot (r : Request EnablesSetting) (s : State) :
    (stateAfter s (execSetEnables r s)).steady.images.snapshot = s.steady.images.snapshot :=
  request_keeps (·.snapshot = s.steady.images.snapshot) _ _ _ _ rfl fun x e he => by
    (repeat' split)
    · exact he
    · exact (handleEnables_snapshot _ _ e).trans he
    · exact he

/-- READ CONFIG shows the entry of the working image as it stands (R23). -/
theorem readConfig_shown (s : State) (number : Byte) (n : TableName) (i : Nat) (e : TableEntry) (hm : s.marker = false)
    (he : s.image.read n i = some e) :
    exec (.readConfig { number := number, body := some { table := n, index := i } }) s =
      .next ((s.hunt .supervisor).replied 0x08 number .ok (.entry e)) := by
  refine congrArg Host.Outcome.next (request_shown _ _ _ s { table := n, index := i } (.entry e) hm rfl ?_)
  simp only [startEvent_image, State.hunt_image, he]

/-- Settles O59: the three answers of COMMIT CONFIG in the order of their tests, and a snapshot that the writes of the working image leave. -/
theorem commitTakesASnapshot : Obligations.CommitTakesASnapshot := by
  refine ⟨fun s number hm => ?commit, ?writes, readConfig_shown⟩
  case commit => exact ⟨commitConfig_locked s number hm, commitConfig_busy s number hm, commitConfig_accepted s number hm⟩
  case writes =>
    intro s t c hc h
    have kept : (stateAfter s (exec c s)).commit = s.commit := by
      obtain ⟨r, rfl⟩ | ⟨r, rfl⟩ := hc
      · exact execWriteConfig_snapshot r s
      · exact execSetEnables_snapshot r s
    rwa [h] at kept

end Sys2Proof.Machine
end
